-- ==== Sys2Proof/Word.lean ====
section
/-! DEFINITION. The word types of the block (00_scope.md R8, R9, R13): bit 0 is the least significant bit. -/

namespace Sys2Proof

/-- Eight bits: the unit a stored trace is cut into (30_encoding.md R69). -/
abbrev Byte := BitVec 8

/-- Thirty-two bits: `INC`, `ACC`, `BMASK`, line-state words, masks and operand fields (R8: `W_INC`, `W_MASK`). -/
abbrev Word := BitVec 32

/-- The phase accumulator's 64 bits (R8: `W_PHASE`). -/
abbrev Phase := BitVec 64

/-- A duty level, 10 bits, 0 to 1023 (R9: `W_DUTY`). -/
abbrev Duty := BitVec 10

/-- A wavetable index, 9 bits, 0 to 511 (R9: `IDX_BITS`). -/
abbrev TableIndex := BitVec 9

/-- A trace word, 40 bits: the opcode in bits 39:32, the operand field in bits 31:0 (R69). -/
abbrev TraceWord := BitVec 40

end Sys2Proof
end

