-- ==== Sys2Proof/Machine/Binary32.lean ====
section
/-! DEFINITION. The format-F operand: the bit pattern of an IEEE 754 binary32 number (30_encoding.md R71,
decision D7). -/

namespace Sys2Proof

/-- s = `arg[31]`. -/
def f32Sign (p : Word) : Bool := p.getLsbD 31

/-- e = `arg[30:23]`. -/
def f32Exp (p : Word) : Nat := (p.extractLsb' 23 8).toNat

/-- m = `arg[22:0]`. -/
def f32Mant (p : Word) : Nat := (p.extractLsb' 0 23).toNat

/-- Whether a pattern is accepted: not an infinity or a NaN (e = 255), and not negative unless it is
negative zero. A pattern that is not accepted is refused `BadFrequency`. -/
def binary32Ok (p : Word) : Bool :=
  f32Exp p != 255 && (!f32Sign p || (f32Exp p == 0 && f32Mant p == 0))

/-- The magnitude of a pattern: m × 2^(−149) when e = 0, else (2^23 + m) × 2^(e − 150). -/
def f32Value (p : Word) : ℚ :=
  if f32Exp p = 0 then ((f32Mant p : ℕ) : ℚ) / ((2 ^ 149 : ℕ) : ℚ)
  else (((2 ^ 23 + f32Mant p) * 2 ^ f32Exp p : ℕ) : ℚ) / ((2 ^ 150 : ℕ) : ℚ)

/-- The rational a pattern stands for, or none where R71 refuses it. Negative zero is 0. -/
def binary32 (p : Word) : Option ℚ :=
  if binary32Ok p then some (f32Value p) else none

end Sys2Proof
end

