-- ==== Sys2Proof/Syntax.lean ====
section
/-! DEFINITION. The sixteen operations of 30_encoding.md R70, one constructor per row of the opcode table. -/

namespace Sys2Proof

/-- The five checkpoints of a scan (R8: `N_CP`), the only values of k in `TSC.SAMPLE k, w` (R72, R83). -/
inductive Checkpoint where
  | cp1 | cp2 | cp3 | cp4 | cp5
  deriving DecidableEq, Repr

/-- The number k of a checkpoint, 1 to 5. -/
def Checkpoint.number : Checkpoint → Nat
  | .cp1 => 1
  | .cp2 => 2
  | .cp3 => 3
  | .cp4 => 4
  | .cp5 => 5

/-- The agents that take steps (00_scope.md R7). The environment takes none: it only answers the
operand w of `TSC.SAMPLE`. -/
inductive Agent where
  | tmr   -- the sample timer
  | isr   -- the interrupt context
  | fg    -- the foreground
  deriving DecidableEq, Repr

/-- The operation set "LWE-OPS 1" (30_encoding.md R70). -/
inductive Instr where
  /-- `RESET` (70_reset_and_hazards.md R170). -/
  | reset
  /-- `DLY n`: n microseconds of busy waiting (41_touch_scanner.md R85). -/
  | dly (n : Word)
  /-- `TSC.CHARGE` (R81). -/
  | tscCharge
  /-- `TSC.RELEASE` (R82). -/
  | tscRelease
  /-- `TSC.FINISH` (R84). -/
  | tscFinish
  /-- `TSC.SAMPLE k, w`: w is what the environment answers at checkpoint k (R83). -/
  | tscSample (k : Checkpoint) (w : Word)
  /-- `TMR.WRAP` (42_oscillator.md R95). -/
  | tmrWrap
  /-- `OSC.TICK` (R96). -/
  | oscTick
  /-- `OSC.WRINC v` (43_freq_update_sync.md R106). -/
  | oscWrinc (v : Word)
  /-- `OSC.SETF f`: f is the bit pattern of a binary32 number (R71, R107). -/
  | oscSetf (f : Word)
  /-- `OSC.SETC` (R108). -/
  | oscSetc
  /-- `IRQ.DIS` (R110). -/
  | irqDis
  /-- `IRQ.EN` (R111). -/
  | irqEn
  /-- `DEB.STEP` (44_octave_debounce.md R115). -/
  | debStep
  /-- `SYN.STEP` (45_synth_control.md R125). -/
  | synStep
  /-- `CTL.ADV` (R143). -/
  | ctlAdv
  deriving DecidableEq, Repr

/-- The agent that performs an operation (R70, column "agent"; 60_exceptions.md R160). -/
def Instr.agent : Instr → Agent
  | .reset => .fg
  | .dly _ => .fg
  | .tscCharge => .fg
  | .tscRelease => .fg
  | .tscFinish => .fg
  | .tscSample _ _ => .fg
  | .tmrWrap => .tmr
  | .oscTick => .isr
  | .oscWrinc _ => .fg
  | .oscSetf _ => .fg
  | .oscSetc => .fg
  | .irqDis => .fg
  | .irqEn => .fg
  | .debStep => .fg
  | .synStep => .fg
  | .ctlAdv => .fg

end Sys2Proof
end

