-- ==== Sys2Proof/WellFormed.lean ====
section
/-! DEFINITION. Which terms of `Instr` are operations (30_encoding.md R70 to R72). The checkpoint numbers
are right by their type; the one check is that of the binary32 operand of `OSC.SETF` (R71). -/

namespace Sys2Proof

/-- Whether a term stands for a trace word that the decoder accepts. -/
def Instr.wellFormed : Instr → Bool
  | .reset => true
  | .dly _ => true
  | .tscCharge => true
  | .tscRelease => true
  | .tscFinish => true
  | .tscSample _ _ => true
  | .tmrWrap => true
  | .oscTick => true
  | .oscWrinc _ => true
  | .oscSetf f => binary32Ok f
  | .oscSetc => true
  | .irqDis => true
  | .irqEn => true
  | .debStep => true
  | .synStep => true
  | .ctlAdv => true

end Sys2Proof
end

