-- ==== Sys2Proof/Decode.lean ====
section
/-! DEFINITION. The decoder of trace words, total, refusing by name, and after it the encoder
(30_encoding.md R69 to R74). -/

namespace Sys2Proof

/-- Why the decoder refuses (R71, R72). -/
inductive DecodeRefusal where
  /-- `InvalidWord`: an opcode that is not assigned, or a format-N word with a non-zero operand. -/
  | invalidWord
  /-- `BadFrequency`: a negative, infinite or NaN operand of `OSC.SETF`. -/
  | badFrequency
  /-- The model's own: fewer than five bytes are left of a stored trace (assumption log 23). -/
  | shortWord
  deriving DecidableEq, Repr

/-- `op`, bits 39:32 of a trace word. -/
def opField (w : TraceWord) : Byte := w.extractLsb' 32 8

/-- `arg`, bits 31:0 of a trace word. -/
def argField (w : TraceWord) : Word := w.extractLsb' 0 32

/-- Format N: no operand, `arg` must be 0 (R69, R72). -/
def formatN (i : Instr) (arg : Word) : Except DecodeRefusal Instr :=
  if arg = 0#32 then .ok i else .error .invalidWord

/-- Format F: `arg` is a binary32 pattern that R71 accepts. -/
def formatF (i : Instr) (arg : Word) : Except DecodeRefusal Instr :=
  if binary32Ok arg then .ok i else .error .badFrequency

/-- The decoder, total on 40-bit words (R72). -/
def decode (w : TraceWord) : Except DecodeRefusal Instr :=
  match (opField w).toNat with
  | 0x00 => formatN .reset (argField w)
  | 0x01 => .ok (.dly (argField w))
  | 0x10 => formatN .tscCharge (argField w)
  | 0x11 => formatN .tscRelease (argField w)
  | 0x12 => formatN .tscFinish (argField w)
  | 0x21 => .ok (.tscSample .cp1 (argField w))
  | 0x22 => .ok (.tscSample .cp2 (argField w))
  | 0x23 => .ok (.tscSample .cp3 (argField w))
  | 0x24 => .ok (.tscSample .cp4 (argField w))
  | 0x25 => .ok (.tscSample .cp5 (argField w))
  | 0x30 => formatN .tmrWrap (argField w)
  | 0x31 => formatN .oscTick (argField w)
  | 0x40 => .ok (.oscWrinc (argField w))
  | 0x41 => formatF (.oscSetf (argField w)) (argField w)
  | 0x42 => formatN .oscSetc (argField w)
  | 0x48 => formatN .irqDis (argField w)
  | 0x49 => formatN .irqEn (argField w)
  | 0x50 => formatN .debStep (argField w)
  | 0x51 => formatN .synStep (argField w)
  | 0x52 => formatN .ctlAdv (argField w)
  | _ => .error .invalidWord

/-- The five bytes of a trace word as a trace is stored: the opcode byte first, then `arg`, most
significant byte first (R69). -/
def wordBytes (w : TraceWord) : List Byte :=
  [w.extractLsb' 32 8, w.extractLsb' 24 8, w.extractLsb' 16 8, w.extractLsb' 8 8, w.extractLsb' 0 8]

/-- The trace word of five stored bytes. -/
def bytesWord (b0 b1 b2 b3 b4 : Byte) : TraceWord := b0 ++ b1 ++ b2 ++ b3 ++ b4

/-- The decoder over stored bytes: the operation of the first five, and the bytes after them. -/
def decodeBytes : List Byte → Except DecodeRefusal (Instr × List Byte)
  | b0 :: b1 :: b2 :: b3 :: b4 :: rest =>
    match decode (bytesWord b0 b1 b2 b3 b4) with
    | .ok i => .ok (i, rest)
    | .error r => .error r
  | _ => .error .shortWord

/-- The operation the decoder reads from the trace word whose bits are w, numbered as the opcode table
numbers them (bit 0 is `arg[0]`, bits 39:32 the opcode); bits from nbits on are 0. The word is laid out
in bytes as a stored trace holds it and given to the decoder. -/
def decodeTableWord (nbits w : Nat) : Option Instr :=
  match decodeBytes (wordBytes (BitVec.ofNat 40 (w % 2 ^ nbits))) with
  | .ok (i, []) => some i
  | _ => none

/-! ## The encoder -/

/-- The opcode byte of an operation (R70). -/
def opcode : Instr → Byte
  | .reset => 0x00#8
  | .dly _ => 0x01#8
  | .tscCharge => 0x10#8
  | .tscRelease => 0x11#8
  | .tscFinish => 0x12#8
  | .tscSample .cp1 _ => 0x21#8
  | .tscSample .cp2 _ => 0x22#8
  | .tscSample .cp3 _ => 0x23#8
  | .tscSample .cp4 _ => 0x24#8
  | .tscSample .cp5 _ => 0x25#8
  | .tmrWrap => 0x30#8
  | .oscTick => 0x31#8
  | .oscWrinc _ => 0x40#8
  | .oscSetf _ => 0x41#8
  | .oscSetc => 0x42#8
  | .irqDis => 0x48#8
  | .irqEn => 0x49#8
  | .debStep => 0x50#8
  | .synStep => 0x51#8
  | .ctlAdv => 0x52#8

/-- The operand field of an operation (R69): 0 in format N. -/
def operand : Instr → Word
  | .dly n => n
  | .tscSample _ w => w
  | .oscWrinc v => v
  | .oscSetf f => f
  | .reset | .tscCharge | .tscRelease | .tscFinish | .tmrWrap | .oscTick => 0#32
  | .oscSetc | .irqDis | .irqEn | .debStep | .synStep | .ctlAdv => 0#32

/-- The trace word of an operation (R69, R70). -/
def encode (i : Instr) : TraceWord := opcode i ++ operand i

/-- A trace as it is stored in bytes (R69). -/
def encodeTrace (ops : List Instr) : List Byte := ops.flatMap (fun i => wordBytes (encode i))

end Sys2Proof
end

