-- ==== Sys2Proof/Config.lean ====
section
/-! DEFINITION. The parameters of the step relation (00_scope.md R8 to R12), the check a configuration
passes before any step (60_exceptions.md R151, 70_reset_and_hazards.md R173), and the free values. -/

namespace Sys2Proof

/-! ## Parameters fixed by the source (R8, R9, R11) -/

/-- `PREC`: "multiply by 128 for sub-Hz precision". -/
abbrev prec : Nat := 128
/-- `TABLE_LEN`: the wavetable's length. -/
abbrev tableLen : Nat := 512
/-- `CYCLE` = `PREC` × `TABLE_LEN`: the number of `PHASE` units in one period of the waveform. -/
abbrev cycle : Nat := prec * tableLen
/-- `AMP_LEVELS`: the number of duty levels. -/
abbrev ampLevels : Nat := 1024
/-- `N_NOTES`: the note table's length. -/
abbrev nNotes : Nat := 61
/-- `OCT_MAX`: the highest octave. -/
abbrev octMax : Nat := 4
/-- `OCT_RESET`: the octave after reset. -/
abbrev octReset : Nat := 2
/-- `BIT_OCT_DN`: the Octave-Down bit of a ButtonMask. -/
abbrev bitOctDn : Nat := 13
/-- `BIT_OCT_UP`: the Octave-Up bit of a ButtonMask. -/
abbrev bitOctUp : Nat := 14
/-- `KEY_MASK`: bits 0 to 12 of a ButtonMask, the thirteen keys. -/
abbrev keyMask : Word := 0x00001FFF#32
/-- `OCT_MASK`: bits 13 and 14 of a ButtonMask. -/
abbrev octMask : Word := 0x00006000#32
/-- `BMASK_VALID`: bits 0 to 14 of a ButtonMask. -/
abbrev bmaskValid : Word := 0x00007FFF#32
/-- `SENSE`: the raw positions 8 to 22 of the fifteen sense lines (R11). -/
abbrev sense : Word := 0x007FFF00#32
/-- The largest increment, 2^32 − 1 (R105). -/
abbrev maxInc : Nat := 2 ^ 32 - 1
/-- `T_SETTLE`: the charge time in microseconds, an operand of `DLY` in `TSC.SCAN` (R76). -/
abbrev tSettle : Word := 10#32
/-- `T_CP[1]`: microseconds from release to the first checkpoint (R76, R89). -/
abbrev tFirstCheckpoint : Word := 30#32
/-- Microseconds between later checkpoints: the differences of `T_CP` (R76, R89). -/
abbrev tNextCheckpoint : Word := 10#32
/-- `T_SLEEP`: the control loop's sleep, 1 ms in microseconds (R76). -/
abbrev tSleep : Word := 1000#32

/-! ## Parameters the source leaves open (R10) -/

/-- `NUM`, the numerics of frequency values: exact rationals (the reference), or a floating-point
format (43_freq_update_sync.md R114, decision D6). The spec names no format: `host` tells one
floating-point host from another, and `Config.floatHost` says what is known of each. -/
inductive Numerics where
  | exact
  | float (host : Nat)
  deriving DecidableEq, Repr

/-- `PWM_LATCH`: when a new `DUTY` takes effect on the pin. No operation reads it (decision D10). -/
inductive PwmLatch where
  | immediate | atWrap
  deriving DecidableEq, Repr

/-- The open parameters, as they come from outside, before any check (R10). Names are the spec's. -/
structure Params where
  /-- `FS`, the fixed sample-rate constant in Hz. -/
  fs : Nat
  /-- `G[1]`, the sense lines of checkpoint 1. -/
  g1 : Word
  /-- `G[2]`. -/
  g2 : Word
  /-- `G[3]`. -/
  g3 : Word
  /-- `G[4]`. -/
  g4 : Word
  /-- `G[5]`. -/
  g5 : Word
  /-- `SINE`, the wavetable. -/
  sine : List Nat
  /-- `NOTE`, the note table, in Hz. -/
  note : List ℚ
  /-- `NUM`. -/
  num : Numerics
  /-- `DEB_TICKS`, control ticks of the octave lock-out. -/
  debTicks : Nat
  /-- `N_LED`, the number of status LEDs. -/
  nLed : Nat
  /-- `TOP`, the timer's wrap value. -/
  top : Nat
  /-- `DIV`, the timer's divider. -/
  div : Nat
  /-- `ATOMIC32`: whether a 32-bit store of the host is indivisible. -/
  atomic32 : Bool
  /-- `CLAMP_RESTARTS`: whether an accepted octave edge at the clamp restarts the lock-out window. -/
  clampRestarts : Bool
  /-- `GATE_ACTIVE_HIGH`: the electrical sense of the gate pin. -/
  gateActiveHigh : Bool
  /-- `PWM_LATCH`. -/
  pwmLatch : PwmLatch
  deriving DecidableEq, Repr

/-- `G[k]`, the checkpoint group of checkpoint k. -/
def Params.group (p : Params) : Checkpoint → Word
  | .cp1 => p.g1
  | .cp2 => p.g2
  | .cp3 => p.g3
  | .cp4 => p.g4
  | .cp5 => p.g5

/-! ## The configuration check -/

/-- Why a configuration has no meaning (60_exceptions.md R151; safe: nothing runs under it). -/
inductive ConfigRefusal where
  /-- `BadTable`: `SINE` or `NOTE` is not as R12 and R133 ask. -/
  | badTable
  /-- `BadGroups`: the groups do not partition `SENSE`. -/
  | badGroups
  /-- `BadRate`: `FS` is 0. -/
  | badRate
  /-- The model's own: fewer than five LEDs. DESIGN CHOICE, assumption log 7: R10 asks for at least
  five and 93_implementation_defined.md U2 refuses a broken constraint without naming a reason. -/
  | badLedCount
  deriving DecidableEq, Repr

/-- `SINE` has 512 entries, each at most 1023 (R151 `BadTable`). -/
def Params.sineOk (p : Params) : Bool :=
  p.sine.length == tableLen && p.sine.all (fun v => decide (v < ampLevels))

/-- `NOTE` has 61 entries, none negative (R151 `BadTable`), and entry 24 is 130.813 Hz
(R10, R133; DEDUCED, assumption log 7). -/
def Params.noteOk (p : Params) : Bool :=
  p.note.length == nNotes && p.note.all (fun q => decide (0 ≤ q))
    && decide (p.note[24]? = some (130813 / 1000))

/-- The five groups are pairwise disjoint and their union is `SENSE` (R151 `BadGroups`). -/
def Params.groupsOk (p : Params) : Bool :=
  (p.g1 ||| p.g2 ||| p.g3 ||| p.g4 ||| p.g5) == sense
    && (p.g1 &&& p.g2) == 0#32 && (p.g1 &&& p.g3) == 0#32 && (p.g1 &&& p.g4) == 0#32
    && (p.g1 &&& p.g5) == 0#32 && (p.g2 &&& p.g3) == 0#32 && (p.g2 &&& p.g4) == 0#32
    && (p.g2 &&& p.g5) == 0#32 && (p.g3 &&& p.g4) == 0#32 && (p.g3 &&& p.g5) == 0#32
    && (p.g4 &&& p.g5) == 0#32

/-- The reason a configuration is refused, if it is (R151). -/
def Params.check (p : Params) : Option ConfigRefusal :=
  if p.fs = 0 then some .badRate
  else if p.sineOk = false then some .badTable
  else if p.noteOk = false then some .badTable
  else if p.groupsOk = false then some .badGroups
  else if p.nLed < 5 then some .badLedCount
  else none

/-- A configuration that has passed its check: the only kind a machine ever runs under (R173 item 6). -/
structure Config where
  /-- The parameters. -/
  params : Params
  /-- They passed the check. -/
  checked : params.check = none
  deriving DecidableEq, Repr

/-- Checks a configuration from outside: the checked configuration, or the reason it is refused. -/
def Params.install (p : Params) : Except ConfigRefusal Config :=
  match h : p.check with
  | none => .ok ⟨p, h⟩
  | some r => .error r

/-! ## The reference configuration

The reference values of R10 and the fixture of 95_test_vectors.md: the spec's own choices for its test
vectors and no facts about the hardware. DESIGN CHOICE, assumption log 2: `State.reset` carries it; no
statement rests on it. -/

/-- The fixture `RAMP`: entry i is 2·i (decision D21). Not a sine. -/
def ramp : List Nat := (List.range tableLen).map (2 * ·)

/-- The reference note table of 45_synth_control.md R133 in thousandths of a hertz (decision D20). -/
def noteMilliHertz : List Nat :=
  [32703, 34648, 36708, 38891, 41203, 43654, 46249, 48999, 51913, 55000, 58270, 61735]
    ++ [65406, 69296, 73416, 77782, 82407, 87307, 92499, 97999, 103826, 110000, 116541, 123471]
    ++ [130813, 138591, 146832, 155563, 164814, 174614, 184997, 195998, 207652, 220000, 233082, 246942]
    ++ [261626, 277183, 293665, 311127, 329628, 349228, 369994, 391995, 415305, 440000, 466164, 493883]
    ++ [523251, 554365, 587330, 622254, 659255, 698456, 739989, 783991, 830609, 880000, 932328, 987767]
    ++ [1046502]

/-- The reference values of the open parameters. `DIV` 3 is D3's example; `GATE_ACTIVE_HIGH` and
`PWM_LATCH` have no reference value and no operation reads them (DESIGN CHOICE, assumption log 22). -/
def referenceParams : Params where
  fs := 40690
  g1 := 0x00000700#32
  g2 := 0x00003800#32
  g3 := 0x0001C000#32
  g4 := 0x000E0000#32
  g5 := 0x00700000#32
  sine := ramp
  note := noteMilliHertz.map (fun n => mkRat n 1000)
  num := .exact
  debTicks := 50
  nLed := 5
  top := 1023
  div := 3
  atomic32 := true
  clampRestarts := true
  gateActiveHigh := true
  pwmLatch := .immediate

/-- The reference parameters pass the check. -/
theorem referenceParams_check : referenceParams.check = none := by decide +kernel

/-- The reference configuration. -/
def Config.reference : Config := ⟨referenceParams, referenceParams_check⟩

/-! ## Floating-point hosts (43_freq_update_sync.md R114, 45_synth_control.md R131)

What may be assumed of a floating-point host, carried by its type. The default values are exact
arithmetic: they show that a host with these properties exists, and no machine computes with them. -/

/-- The exact conversion of R105, monotone in the frequency: the default of `FloatHost.convert`. -/
def exactConversion (fs : Nat) (f : ℚ) : Word :=
  BitVec.ofNat 32 (min maxInc ⌊f * prec * tableLen / (fs : ℚ)⌋.toNat)

theorem exactConversion_toNat (fs : Nat) (f : ℚ) :
    (exactConversion fs f).toNat = min maxInc ⌊f * prec * tableLen / (fs : ℚ)⌋.toNat := by
  rw [exactConversion, BitVec.toNat_ofNat]
  exact Nat.mod_eq_of_lt (lt_of_le_of_lt (min_le_left _ _) (by decide))

theorem exactConversion_mono (fs : Nat) (f1 f2 : ℚ) (h : f1 ≤ f2) :
    (exactConversion fs f1).toNat ≤ (exactConversion fs f2).toNat := by
  have hq : ⌊f1 * prec * tableLen / (fs : ℚ)⌋.toNat ≤ ⌊f2 * prec * tableLen / (fs : ℚ)⌋.toNat :=
    Int.toNat_le_toNat (Int.floor_le_floor (by gcongr))
  rw [exactConversion_toNat, exactConversion_toNat]
  exact min_le_min_left _ hq

theorem exactConversion_near (fs : Nat) (f : ℚ) (hf : 0 ≤ f)
    (hq : f * prec * tableLen / (fs : ℚ) < 2 ^ 32) :
    |((exactConversion fs f).toNat : ℚ) - f * prec * tableLen / (fs : ℚ)| ≤ 1 := by
  rw [exactConversion_toNat]
  have hq0 : 0 ≤ f * prec * tableLen / (fs : ℚ) := by positivity
  generalize f * prec * tableLen / (fs : ℚ) = q at hq hq0
  have hn : ((⌊q⌋.toNat : ℕ) : ℚ) = (⌊q⌋ : ℚ) := by
    exact_mod_cast Int.toNat_of_nonneg (Int.floor_nonneg.2 hq0)
  have hfl : ⌊q⌋ < 2 ^ 32 := Int.floor_lt.2 (by exact_mod_cast hq)
  rw [min_eq_right (by rw [maxInc]; omega), hn, abs_le]
  exact ⟨by linarith [Int.lt_floor_add_one q], by linarith [Int.floor_le q]⟩

/-- A floating-point host: its rounding `fl` (00_scope.md R16), its conversion `FreqToInc'` (R114), and
the figures of its error bound (R131). PRESUMED, assumption log 6: the form of the bound and that
`largest` is a number of the format are general knowledge of floating-point formats; the spec names
none of it. -/
structure FloatHost where
  /-- `fl`: a rational rounded into the format. -/
  fl : ℚ → ℚ := id
  /-- The increment of a frequency, for a given `FS`; its 32 bits are R114's range. -/
  convert : Nat → ℚ → Word := exactConversion
  /-- The relative part of the rounding error. -/
  relError : ℚ := 0
  /-- The absolute part of the rounding error, that of the numbers next to zero. -/
  absError : ℚ := 0
  /-- The largest number of the format: beyond it a result overflows and no bound holds. -/
  largest : ℚ := 1
  relError_nonneg : 0 ≤ relError := by exact le_refl _
  absError_nonneg : 0 ≤ absError := by exact le_refl _
  largest_pos : 0 < largest := by exact one_pos
  /-- Zero is a number of the format. -/
  fl_zero : fl 0 = 0 := by exact rfl
  /-- A number of the format is rounded to itself. -/
  fl_idem : ∀ q, fl (fl q) = fl q := by exact fun _ => rfl
  /-- The largest number is a number of the format. -/
  fl_largest : fl largest = largest := by exact rfl
  /-- The rounding error, where nothing overflows. -/
  fl_error : ∀ q, |q| ≤ largest → |fl q - q| ≤ relError * |q| + absError := by simp
  /-- R114: 0 at 0. -/
  convert_zero : ∀ fs, convert fs 0 = 0#32 := by simp [exactConversion]
  /-- R114: monotone, for frequencies at or above 0. -/
  convert_mono : ∀ fs f1 f2, 0 ≤ f1 → f1 ≤ f2 → (convert fs f1).toNat ≤ (convert fs f2).toNat := by
    exact fun fs f1 f2 _ h => exactConversion_mono fs f1 f2 h
  /-- R114: within 1 of the exact quotient, below saturation. -/
  convert_near : ∀ (fs : Nat) (f : ℚ), 0 < fs → 0 ≤ f → f * prec * tableLen / (fs : ℚ) < 2 ^ 32 →
      |((convert fs f).toNat : ℚ) - f * prec * tableLen / (fs : ℚ)| ≤ 1 := by
    exact fun fs f _ hf hq => exactConversion_near fs f hf hq
  deriving Inhabited

/-! ## Free values: constants without a body, of which nothing can be proved -/

/-- `DUTY` after a reset and before the first `OSC.TICK`, one value for each draw
(10_state.md R23, R171, 93_implementation_defined.md U10; assumption log 3). -/
opaque Config.freeDuty : Nat → Duty

/-- What a read of `NOTE` beyond its last entry yields, one value for each draw
(20_memory.md R62, U8; assumption log 4). -/
opaque Config.freeNote : Nat → ℚ

/-- `FreqToInc` of a negative number, outside the domain of 43_freq_update_sync.md R105
(assumption log 5). -/
opaque Config.freeIncrement : ℚ → Word

/-- The floating-point hosts, one for each number a configuration can name: of each, nothing is known
but what `FloatHost` says (R114, R131, decision D6; assumption log 6). -/
opaque Config.floatHost : Nat → FloatHost

end Sys2Proof
end

