-- ==== Sys2Proof/Machine/State.lean ====
section
/-! DEFINITION. The state of the block (10_state.md R20 to R39), its reset values (R45), and the reasons a
step can stop (60_exceptions.md R151). -/

namespace Sys2Proof.Machine

/-- `SDRV`, the drive mode of the fifteen sense lines, switched together (10_state.md R26). -/
inductive Drive where
  | hiz    -- 0, `HIZ`: every line a high-impedance input
  | high   -- 1, `HIGH`: every line driven to the charged state
  deriving DecidableEq, Repr

/-- The sticky fault marks (R151). They live in the model only; the step that raises one goes on. -/
inductive FaultMark where
  /-- `Overrun`: `TMR.WRAP` found `PEND` = 1. -/
  | overrun
  /-- `NoteIndex`: `SYN.STEP` computed an index above 60. -/
  | noteIndex
  deriving DecidableEq, Repr

/-- `FAULTS`, a set of marks (R39): one membership bit for each mark of R151. -/
structure FaultSet where
  overrun : Bool
  noteIndex : Bool
  deriving DecidableEq, Repr

/-- The empty set of marks, the reset value. -/
def FaultSet.empty : FaultSet := ⟨false, false⟩

/-- The state. Field names follow the spec's element names; the last three fields are the model's own. -/
structure State where
  /-- `PHASE`, the phase accumulator (R21). -/
  phase : Phase
  /-- `INC`, the phase increment, the one datum both contexts share (R22). -/
  inc : Word
  /-- `DUTY`, the duty level of the output channel (R23). -/
  duty : Duty
  /-- `PEND`, the interrupt-pending flag (R24). -/
  pend : Bool
  /-- `IE`, the interrupt-enable flag (R25). -/
  ie : Bool
  /-- `SDRV` (R26). -/
  sdrv : Drive
  /-- `ACC`, the "still high" readings of one scan (R27). -/
  acc : Word
  /-- `SSTEP`, the progress of the scan sequencer (R29). -/
  sstep : Fin 8
  /-- `BMASK`, the ButtonMask of the last completed scan (R28). -/
  bmask : Word
  /-- `OCT`, the current octave (R30). -/
  oct : Nat
  /-- `OCT_PREV`, the octave controls of the previous control tick (R31). -/
  octPrev : Word
  /-- `OCT_T`, the value of `TICKS` at the last accepted octave edge (R32). -/
  octT : Nat
  /-- `TICKS`, completed control ticks, unbounded (R33, decision D14). -/
  ticks : Nat
  /-- `GLIDE`, the glide factor (R34). -/
  glide : ℚ
  /-- `TARGET_FREQ`, in Hz (R35). -/
  targetFreq : ℚ
  /-- `CUR_FREQ`, the smoothed frequency, in Hz (R36). -/
  curFreq : ℚ
  /-- `GATE`, the note gate, true = ON (R37). -/
  gate : Bool
  /-- `LED`, the logical LED word: a number of `N_LED` bits (R38; assumption log 8). -/
  led : Nat
  /-- `FAULTS` (R39). -/
  faults : FaultSet
  /-- The model's own: the configuration the machine runs under, written by no operation
  (assumption log 2). -/
  cfg : Config
  /-- The model's own: how many free values have been drawn (assumption log 3). -/
  draws : Nat
  /-- The model's own: the trace words still to be performed (R69, R184; assumption log 1). -/
  trace : List TraceWord
  deriving DecidableEq, Repr

/-- The state `RESET` leaves (R45, R170) under a configuration, with a given trace still to run.
`DUTY` is a draw (R171). -/
def State.resetWith (cfg : Config) (draws : Nat) (trace : List TraceWord) : State where
  phase := 0#64
  inc := 0#32
  duty := Config.freeDuty draws
  pend := false
  ie := true
  sdrv := .hiz
  acc := 0#32
  sstep := 0
  bmask := 0#32
  oct := octReset
  octPrev := 0#32
  octT := 0
  ticks := 0
  glide := 1
  targetFreq := 0
  curFreq := 0
  gate := false
  led := 0
  faults := FaultSet.empty
  cfg := cfg
  draws := draws + 1
  trace := trace

/-- The machine right after reset, with no trace and the reference configuration (assumption logs 1, 2). -/
def State.reset : State := State.resetWith Config.reference 0 []

/-- Why a run stops. -/
inductive Fault where
  /-- The trace holds no further operation: the end of the run (70_reset_and_hazards.md R184). Raised by
  `step` alone. Safe: the model says nothing of what the hardware does next (assumption log 11). -/
  | traceEnd
  deriving DecidableEq, Repr

/-- Why a trace word or an operation has no step (R151). All safe: the model stops where the spec gives
the operation no meaning. -/
inductive Refusal where
  /-- An instruction without a meaning yet: none is left. Raised by `exec` alone. Safe. -/
  | notModelled (mnemonic : String)
  /-- `ScanOrder`: a scan operation while `SSTEP` is not what its rule requires. Safe. -/
  | scanOrder
  /-- `NoTickPending`: `OSC.TICK` with `PEND` = 0. Safe. -/
  | noTickPending
  /-- `Masked`: `OSC.TICK` with `PEND` = 1 and `IE` = 0. Safe. -/
  | masked
  /-- `BadFrequency`: an operand of `OSC.SETF` that is negative, infinite or a NaN; raised by the decoder,
  and by `OSC.SETF` given as a term. Safe. -/
  | badFrequency
  /-- `InvalidWord`: a trace word that decodes to no operation; raised by the decoder. Safe. -/
  | invalidWord
  /-- The model's own: a stored trace that ends inside a word; raised by the decoder of bytes. Safe. -/
  | shortWord
  /-- `BadTable`; raised by `configure`. Safe. -/
  | badTable
  /-- `BadGroups`; raised by `configure`. Safe. -/
  | badGroups
  /-- `BadRate`; raised by `configure`. Safe. -/
  | badRate
  /-- The model's own: fewer than five LEDs; raised by `configure` (assumption log 7). Safe. -/
  | badLedCount
  deriving DecidableEq, Repr

end Sys2Proof.Machine
end

