-- ==== Sys2Proof/Machine/Flags.lean ====
section
/-! DEFINITION. The fault marks and the one-bit and LED outputs an operation computes (10_state.md R37 to
R41, 45_synth_control.md R141). There are no condition codes: no operation sets a carry, zero, sign or
overflow flag (R41). -/

namespace Sys2Proof.Machine

/-- A mark joins the set and stays (R39). -/
def FaultSet.add (f : FaultSet) : FaultMark → FaultSet
  | .overrun => { f with overrun := true }
  | .noteIndex => { f with noteIndex := true }

/-- `raise m`: sets the sticky mark and lets the step go on (00_scope.md R15). -/
def State.raise (s : State) (m : FaultMark) : State := { s with faults := s.faults.add m }

/-- `1 << OCT` in a word of `N_LED` bits (R141, R185). -/
def ledOctave (c : Config) (oct : Nat) : Nat := (1 <<< oct) % 2 ^ c.params.nLed

/-- `2^N_LED − 1`: every LED lit (R141). -/
def ledAllOn (c : Config) : Nat := 2 ^ c.params.nLed - 1

end Sys2Proof.Machine
end

