-- ==== Sys2Proof/Machine/Operands.lean ====
section
/-! DEFINITION. The derived quantities the operation rules use (30_encoding.md R66, R68;
43_freq_update_sync.md R105, R114; 45_synth_control.md R130). They read no state. -/

namespace Sys2Proof

/-! ## Words -/

/-- `Idx(p)` = `p[15:7]`, the wavetable index (R68). -/
def idx (p : Phase) : TableIndex := p.extractLsb' 7 9

/-- `Rev6`: the reversal of a 6-bit word (R66). -/
def rev6 (x : BitVec 6) : BitVec 6 := x.reverse

/-- `Remap(t)`: raw pin order to ButtonMask order (R66). Raw bit 15 to bit 14 is decision D11. -/
def remap (t : Word) : Word :=
  (rev6 (t.extractLsb' 8 6)).setWidth 32
    ||| ((t.extractLsb' 16 7).setWidth 32 <<< 6)
    ||| ((t.extractLsb' 14 1).setWidth 32 <<< 13)
    ||| ((t.extractLsb' 15 1).setWidth 32 <<< 14)

/-- `Both(m)`: both octave controls held (R68). -/
def both (m : Word) : Bool := m.getLsbD bitOctDn && m.getLsbD bitOctUp

/-- `Rise(m, prev, b)`: bit b went from 0 to 1 between two control ticks (R68). -/
def rise (m prev : Word) (b : Nat) : Bool := m.getLsbD b && !prev.getLsbD b

/-- The greatest i ≤ n with `m[i]` = 1, if there is one. -/
def highestSet (m : Word) : Nat → Option Nat
  | 0 => if m.getLsbD 0 then some 0 else none
  | n + 1 => if m.getLsbD (n + 1) then some (n + 1) else highestSet m n

/-- `Hsb(m)`: the semitone offset of the highest key held, 0 to 12; none when no key is held, where R68
leaves it undefined. -/
def hsb (m : Word) : Option Nat := highestSet m 12

/-- `NoteIdx(o, s)` = 12·o + s (R68). -/
def noteIdx (o s : Nat) : Nat := 12 * o + s

/-! ## Numerics -/

/-- Where a rule says `fl`: nothing under exact rationals, rounding under a floating-point `NUM` (R16). -/
def round (c : Config) (q : ℚ) : ℚ :=
  match c.params.num with
  | .exact => q
  | .float host => (Config.floatHost host).fl q

/-- `GlideOf(s)` = 1 / (10·s + 1), with the roundings of R125 (R68, R129). -/
def glideOf (c : Config) (s : Nat) : ℚ :=
  round c (1 / round c (round c (10 * (s : ℚ)) + 1))

/-- The smoothed frequency `CUR_FREQ + (t − CUR_FREQ) · g`, with the roundings of R125 (R130, R131). -/
def smooth (c : Config) (cur t g : ℚ) : ℚ :=
  round c (cur + round c (round c (t - cur) * g))

/-- The exact quotient f × 128 × 512 / `FS` (R105). -/
def incQuotient (c : Config) (f : ℚ) : ℚ := f * prec * tableLen / (c.params.fs : ℚ)

/-- A floating-point host's increment as a number: its configuration function `FreqToInc'` at this `FS`
(R114). -/
def floatIncrement (host : Nat) (c : Config) (f : ℚ) : Nat :=
  ((Config.floatHost host).convert c.params.fs f).toNat

/-- The increment of a non-negative frequency as a number, at most 2^32 − 1: rounded toward zero and
saturated (R105, decision D5), or what a floating-point host gives (R114). -/
def increment (c : Config) (f : ℚ) : Nat :=
  match c.params.num with
  | .exact => min maxInc ⌊incQuotient c f⌋.toNat
  | .float host => floatIncrement host c f

/-- `FreqToInc(f)` (R105). A negative f is outside its domain: a free value (assumption log 5). -/
def freqToInc (c : Config) (f : ℚ) : Word :=
  if f < 0 then Config.freeIncrement f else BitVec.ofNat 32 (increment c f)

end Sys2Proof
end

