-- ==== Sys2Proof/Machine/Ops.lean ====
section
/-! DEFINITION. The named operations over State that the meanings share: fetching from the trace, the
memory primitives of 20_memory.md R62, free values, the scan sequencer, the sample-tick interrupt's entry
and return, and the configuration check. -/

namespace Sys2Proof.Machine

open Host (Outcome)

/-! ## Refusals of the decoder and of the configuration check -/

/-- The decoder's refusal as a step's (R151). -/
def Refusal.ofDecode : DecodeRefusal → Refusal
  | .invalidWord => .invalidWord
  | .badFrequency => .badFrequency
  | .shortWord => .shortWord

/-- The configuration check's refusal (R151). -/
def Refusal.ofConfig : ConfigRefusal → Refusal
  | .badTable => .badTable
  | .badGroups => .badGroups
  | .badRate => .badRate
  | .badLedCount => .badLedCount

/-- A configuration from outside: refused, or the machine right after reset under it (R151, R173). -/
def configure (p : Params) : Outcome State Fault Refusal :=
  match p.install with
  | .ok c => .next (State.resetWith c 0 [])
  | .error r => .refused (Refusal.ofConfig r)

/-! ## The trace -/

/-- The state with another trace to run. -/
def State.withTrace (s : State) (t : List TraceWord) : State := { s with trace := t }

/-- Takes the next trace word, if there is one (R69, R184). -/
def State.fetch (s : State) : Option (TraceWord × State) :=
  match s.trace with
  | [] => none
  | w :: rest => some (w, s.withTrace rest)

/-! ## Memory primitives (R53, R62) -/

/-- `MemRead(INC, 4)`: the atomic load of the shared word. -/
def State.memReadInc (s : State) : Word := s.inc

/-- `MemWrite(INC, 4, v)`: the one indivisible store of the shared word. -/
def State.memWriteInc (s : State) (v : Word) : State := { s with inc := v }

/-- `SINE[i]`: the table entry unchanged (R62, R100). The index is nine bits, so it is in range. -/
def State.sineAt (s : State) (i : TableIndex) : Duty :=
  BitVec.ofNat 10 (s.cfg.params.sine.getD i.toNat 0)

/-- `NOTE[i]` for i in 0 to 60 (R62). -/
def State.noteAt (s : State) (i : Nat) : ℚ := s.cfg.params.note.getD i 0

/-- The state with the next free value drawn. -/
def State.nextDraw (s : State) : State := { s with draws := s.draws + 1 }

/-- Reads `NOTE` at a computed index: the entry, or beyond the last one the mark `NoteIndex` and a free
value (R62, R125; assumption log 4). -/
def readNote (i : Nat) (s : State) : ℚ × State :=
  if i < nNotes then (s.noteAt i, s)
  else (Config.freeNote s.draws, (s.raise .noteIndex).nextDraw)

/-! ## The scan sequencer (10_state.md R29) -/

/-- `SSTEP` when checkpoint k is due: k + 1 (R83). -/
def dueStep : Checkpoint → Fin 8
  | .cp1 => 2
  | .cp2 => 3
  | .cp3 => 4
  | .cp4 => 5
  | .cp5 => 6

/-- `SSTEP` once checkpoint k is taken: k + 2 (R83). -/
def takenStep : Checkpoint → Fin 8
  | .cp1 => 3
  | .cp2 => 4
  | .cp3 => 5
  | .cp4 => 6
  | .cp5 => 7

/-- One operation of a scan: enabled when `SSTEP` is `need`, it acts and moves `SSTEP` to `after`; out of
order it is refused `ScanOrder` (R81 to R84). -/
def scanStep (need after : Fin 8) (act : State → State) (s : State) : Outcome State Fault Refusal :=
  if s.sstep = need then .next { act s with sstep := after } else .refused .scanOrder

/-! ## The sample-tick interrupt (60_exceptions.md R152 to R157) -/

/-- Entry: nothing is saved, no mode or mask changes (R156); the handler's first action clears `PEND`
(R153). -/
def State.acknowledge (s : State) : State := { s with pend := false }

/-- Return: implicit at the end of the handler; nothing is restored, `IE` is unchanged (R157). -/
def State.returnFromTick (s : State) : State := s

/-- Takes the sample-tick interrupt: the handler runs to completion as one step when `PEND` = 1 and
`IE` = 1; otherwise it has no step (R96, R153). -/
def takeSampleTick (handler : State → State) (s : State) : Outcome State Fault Refusal :=
  if s.pend = false then .refused .noTickPending
  else if s.ie = false then .refused .masked
  else .next (handler s.acknowledge).returnFromTick

end Sys2Proof.Machine
end

