-- ==== Sys2Proof/Machine/Debounce.lean ====
section
/-! DEFINITION. The octave-button debounce, unit DEB (44_octave_debounce.md R115 to R120). -/

namespace Sys2Proof.Machine

open Host (Outcome)

/-- The octave an accepted edge asks for, if an edge is accepted on this tick: in Normal mode, with the
lock-out window over, Up goes to min(`OCT` + 1, 4) and Down to max(`OCT` − 1, 0) (R115). -/
def acceptedOctave (s : State) : Option Nat :=
  if both s.bmask then none
  else if s.ticks - s.octT < s.cfg.params.debTicks then none
  else if rise s.bmask s.octPrev bitOctUp then some (min (s.oct + 1) octMax)
  else if rise s.bmask s.octPrev bitOctDn then some (s.oct - 1)
  else none

/-- Writes an accepted octave. The window restarts, but at the clamp only when `CLAMP_RESTARTS` (R115 d,
decision D15; assumption log 9). -/
def acceptEdge (o : Nat) (s : State) : State :=
  { s with
    oct := o
    octT := if o = s.oct && !s.cfg.params.clampRestarts then s.octT else s.ticks }

/-- `DEB.STEP`: acts on an accepted edge, and on every tick keeps the octave controls for the next
(R115). -/
def execDebStep (s : State) : Outcome State Fault Refusal :=
  .next { (match acceptedOctave s with
           | some o => acceptEdge o s
           | none => s) with octPrev := s.bmask &&& octMask }

end Sys2Proof.Machine
end

