-- ==== Sys2Proof/Machine/Oscillator.lean ====
section
/-! DEFINITION. The sample timer and the oscillator engine, unit OSC (42_oscillator.md R93 to R103). -/

namespace Sys2Proof.Machine

open Host (Outcome)

/-- `TMR.WRAP`: sets `PEND`; a boundary that finds the previous one unserved raises `Overrun` and is
merged with it (R95, decision D9). -/
def execTmrWrap (s : State) : Outcome State Fault Refusal :=
  .next { (if s.pend then s.raise .overrun else s) with pend := true }

/-- What the handler does after its acknowledge: advances `PHASE` by `INC` modulo 2^64 and writes the
table entry at the advanced phase to `DUTY` (R96). -/
def advancePhase (s : State) : State :=
  let p := s.phase + s.memReadInc.setWidth 64
  { s with phase := p, duty := s.sineAt (idx p) }

/-- `OSC.TICK`: the handler `on_sample_tick`, one indivisible step (R96). -/
def execOscTick (s : State) : Outcome State Fault Refusal := takeSampleTick advancePhase s

end Sys2Proof.Machine
end

