-- ==== Sys2Proof/Machine/Scanner.lean ====
section
/-! DEFINITION. The touch scanner, unit TSC (41_touch_scanner.md R80 to R91). -/

namespace Sys2Proof.Machine

open Host (Outcome)

/-- `TSC.CHARGE`: drives the lines high and drops the last scan's readings (R81). -/
def execTscCharge (s : State) : Outcome State Fault Refusal :=
  scanStep 0 1 (fun s => { s with sdrv := .high, acc := 0#32 }) s

/-- `TSC.RELEASE`: the lines become high-impedance inputs (R82). -/
def execTscRelease (s : State) : Outcome State Fault Refusal :=
  scanStep 1 2 (fun s => { s with sdrv := .hiz }) s

/-- `TSC.SAMPLE k, w`: ors in the lines of group k that the answer w shows still high (R83). -/
def execTscSample (k : Checkpoint) (w : Word) (s : State) : Outcome State Fault Refusal :=
  scanStep (dueStep k) (takenStep k)
    (fun s => { s with acc := s.acc ||| (w &&& s.cfg.params.group k) }) s

/-- `TSC.FINISH`: inverts the accumulated readings once and remaps them into `BMASK` (R84). -/
def execTscFinish (s : State) : Outcome State Fault Refusal :=
  scanStep 7 0 (fun s => { s with bmask := remap (~~~s.acc &&& sense) }) s

end Sys2Proof.Machine
end

