-- ==== Sys2Proof/Machine/Sync.lean ====
section
/-! DEFINITION. The frequency update and its synchronisation primitive, unit SYNC
(43_freq_update_sync.md R105 to R114). -/

namespace Sys2Proof.Machine

open Host (Outcome)

/-- `OSC.WRINC v`: the indivisible store of `INC` (R106). -/
def execOscWrinc (v : Word) (s : State) : Outcome State Fault Refusal := .next (s.memWriteInc v)

/-- `OSC.SETF f`: converts the literal frequency and stores the increment; a pattern that R71 refuses is
no operation (R107). -/
def execOscSetf (f : Word) (s : State) : Outcome State Fault Refusal :=
  match binary32 f with
  | some q => .next (s.memWriteInc (freqToInc s.cfg q))
  | none => .refused .badFrequency

/-- `OSC.SETC`: converts `CUR_FREQ` and stores the increment (R108). -/
def execOscSetc (s : State) : Outcome State Fault Refusal :=
  .next (s.memWriteInc (freqToInc s.cfg s.curFreq))

/-- `IRQ.DIS`: enters the critical section (R110). -/
def execIrqDis (s : State) : Outcome State Fault Refusal := .next { s with ie := false }

/-- `IRQ.EN`: leaves the critical section (R111). -/
def execIrqEn (s : State) : Outcome State Fault Refusal := .next { s with ie := true }

end Sys2Proof.Machine
end

