-- ==== Sys2Proof/Machine/Synth.lean ====
section
/-! DEFINITION. The synth state machine, host agent SYN (45_synth_control.md R125 to R142). -/

namespace Sys2Proof.Machine

open Host (Outcome)

/-- The writes every pass ends in: the glide factor, target, gate and LEDs chosen on this tick, and the
smoothing with them (R125). -/
def synCommit (g t : ℚ) (gate : Bool) (led : Nat) (s : State) : State :=
  { s with glide := g, targetFreq := t, gate := gate, led := led,
           curFreq := smooth s.cfg s.curFreq t g }

/-- Glide-Adjust mode: both octave controls held (R125, R126). -/
def glideAdjust (s : State) : State :=
  match hsb s.bmask with
  | some k => synCommit (glideOf s.cfg k) s.targetFreq false 0 s
  | none => synCommit s.glide s.targetFreq false (ledAllOn s.cfg) s

/-- Normal play mode (R125, R127, R128). -/
def normalPlay (s : State) : State :=
  match hsb s.bmask with
  | some k =>
    let r := readNote (noteIdx s.oct k) s
    synCommit s.glide r.1 true (ledOctave s.cfg s.oct) r.2
  | none => synCommit s.glide s.targetFreq false (ledOctave s.cfg s.oct) s

/-- `SYN.STEP`: one pass, its mode decided from `BMASK` alone (R125, R126). -/
def execSynStep (s : State) : Outcome State Fault Refusal :=
  .next (if both s.bmask then glideAdjust s else normalPlay s)

end Sys2Proof.Machine
end

