-- ==== Sys2Proof/Machine/System.lean ====
section
/-! DEFINITION. `RESET` (70_reset_and_hazards.md R170), `DLY` (41_touch_scanner.md R85) and `CTL.ADV`
(45_synth_control.md R143). -/

namespace Sys2Proof.Machine

open Host (Outcome)

/-- `RESET`: every element takes its reset value of 10_state.md R45, `DUTY` a draw; the configuration and
the rest of the trace stay (R170, U21; assumption log 21). -/
def execReset (s : State) : Outcome State Fault Refusal :=
  .next (State.resetWith s.cfg s.draws s.trace)

/-- `DLY n`: no element changes, whatever n (R85). -/
def execDly (_n : Word) (s : State) : Outcome State Fault Refusal := .next s

/-- `CTL.ADV`: `TICKS <- TICKS + 1` (R143). -/
def execCtlAdv (s : State) : Outcome State Fault Refusal := .next { s with ticks := s.ticks + 1 }

end Sys2Proof.Machine
end

