-- ==== Sys2Proof/Machine/Dispatch.lean ====
section
/-! DEFINITION. One operation: its meaning, by constructor. -/

namespace Sys2Proof.Machine

def exec (i : Instr) (s : State) : Host.Outcome State Fault Refusal :=
  match i with
  | .reset => Sys2Proof.Machine.execReset s
  | .dly n => Sys2Proof.Machine.execDly n s
  | .tscCharge => Sys2Proof.Machine.execTscCharge s
  | .tscRelease => Sys2Proof.Machine.execTscRelease s
  | .tscFinish => Sys2Proof.Machine.execTscFinish s
  | .tscSample k w => Sys2Proof.Machine.execTscSample k w s
  | .tmrWrap => Sys2Proof.Machine.execTmrWrap s
  | .oscTick => Sys2Proof.Machine.execOscTick s
  | .oscWrinc v => Sys2Proof.Machine.execOscWrinc v s
  | .oscSetf f => Sys2Proof.Machine.execOscSetf f s
  | .oscSetc => Sys2Proof.Machine.execOscSetc s
  | .irqDis => Sys2Proof.Machine.execIrqDis s
  | .irqEn => Sys2Proof.Machine.execIrqEn s
  | .debStep => Sys2Proof.Machine.execDebStep s
  | .synStep => Sys2Proof.Machine.execSynStep s
  | .ctlAdv => Sys2Proof.Machine.execCtlAdv s

end Sys2Proof.Machine
end

