-- ==== Sys2Proof/Machine/Step.lean ====
section
/-! DEFINITION. One step of the machine: the next operation of the trace takes effect
(20_memory.md R57, 70_reset_and_hazards.md R184). -/

namespace Sys2Proof.Machine

/-- One step: takes the next trace word, decodes it and performs the operation on the state with the rest
of the trace. A word the decoder refuses is refused by name; a trace that has ended stops the run. -/
def step (s : State) : Host.Outcome State Fault Refusal :=
  match s.fetch with
  | none => .fault .traceEnd
  | some (w, s') =>
    match decode w with
    | .ok i => exec i s'
    | .error r => .refused (Refusal.ofDecode r)

/-- The state whose next trace word is the one whose bits are w, numbered as the opcode table numbers
them; bits from nbits on are 0. What followed the old next word follows it (assumption log 1). -/
def State.withFetchWord (s : State) (nbits w : Nat) : State :=
  s.withTrace (BitVec.ofNat 40 (w % 2 ^ nbits) :: s.trace.tail)

end Sys2Proof.Machine
end

