-- ==== Sys2Proof/Machine/Pins.lean ====
section
/-! DEFINITION. What the pins show of the registers (10_state.md R37, R38; 60_exceptions.md R164, R165;
decisions D10, D26). No operation reads any of it. The pulse-width part is PRESUMED, the spec's own
general knowledge K3, K4 (assumption log 22). -/

namespace Sys2Proof.Machine

/-- The levels of the LED pins: the complement of `LED` in `N_LED` bits, active-low (R38, R141). -/
def State.ledPins (s : State) : Nat := 2 ^ s.cfg.params.nLed - 1 - s.led

/-- The level of the note-gate pin, by `GATE_ACTIVE_HIGH` (D26). -/
def State.gatePin (s : State) : Bool := s.gate == s.cfg.params.gateActiveHigh

/-- The duty level in force on the pin: the one now in `DUTY`, or the one that stood there at the last
wrap, by `PWM_LATCH` (R165). -/
def dutyInForce (c : Config) (atLastWrap now : Duty) : Duty :=
  match c.params.pwmLatch with
  | .immediate => now
  | .atWrap => atLastWrap

/-- The pulse-width pin at a count of the timer: high while the count is below the duty level (R165). -/
def pulsePin (duty : Duty) (count : Nat) : Bool := decide (count < duty.toNat)

/-- `FS_eff` for a given clock: `F_CLK` / (`DIV` × (`TOP` + 1)) (R164), none where `DIV` is 0. DESIGN
CHOICE, assumption log 22: R10 lets `DIV` be any natural and the spec gives no rate for 0; such a
configuration is accepted, since no operation reads `DIV`, and it has no rate here. -/
def effectiveRate (c : Config) (clock : ℚ) : Option ℚ :=
  if c.params.div = 0 then none else some (clock / ((c.params.div * (c.params.top + 1) : ℕ) : ℚ))

end Sys2Proof.Machine
end

