-- ==== Sys2Proof/Machine/Run.lean ====
section
/-! DEFINITION. Traces of operations: performing a list of them, and the pseudo-operations
(30_encoding.md R76). -/

namespace Sys2Proof.Machine

open Host (Outcome)

/-- Performs operations in order, stopping at the first that has no step (00_scope.md R19). -/
def runOps : List Instr → State → Outcome State Fault Refusal
  | [], s => .next s
  | i :: is, s =>
    match exec i s with
    | .next t => runOps is t
    | .fault r => .fault r
    | .refused r => .refused r

/-- `TSC.SCAN w1, w2, w3, w4, w5` (R76). -/
def tscScan (w1 w2 w3 w4 w5 : Word) : List Instr :=
  [.tscCharge, .dly tSettle, .tscRelease, .dly tFirstCheckpoint,
   .tscSample .cp1 w1, .dly tNextCheckpoint, .tscSample .cp2 w2, .dly tNextCheckpoint,
   .tscSample .cp3 w3, .dly tNextCheckpoint, .tscSample .cp4 w4, .dly tNextCheckpoint,
   .tscSample .cp5 w5, .tscFinish]

/-- `OSC.RUN n`: n sample periods (R76). -/
def oscRun : Nat → List Instr
  | 0 => []
  | n + 1 => .tmrWrap :: .oscTick :: oscRun n

/-- `SET_FREQUENCY f`: bracketed by the critical section on a host without an indivisible 32-bit store
(R76, R109). -/
def setFrequency (c : Config) (f : Word) : List Instr :=
  if c.params.atomic32 then [.oscSetf f] else [.irqDis, .oscSetf f, .irqEn]

/-- `CTL.TICK w1, w2, w3, w4, w5`: one control tick (R76, R144). -/
def ctlTick (w1 w2 w3 w4 w5 : Word) : List Instr :=
  tscScan w1 w2 w3 w4 w5 ++ [.debStep, .synStep, .oscSetc, .dly tSleep, .ctlAdv]

end Sys2Proof.Machine
end

