-- ==== Sys2Proof/Safety.lean ====
section
/-! DEFINITION. What counts as a safe state, and the terms statements are written in. -/

namespace Sys2Proof

/-! ## Floating-point hosts (45_synth_control.md R131; assumption log 6) -/

/-- The error bound of one rounding of q on a floating-point host. -/
def FloatHost.errorAt (h : FloatHost) (q : ℚ) : ℚ := h.relError * |q| + h.absError

/-- The error bound of one smoothing step on a floating-point host, from c toward t: that of the
difference, of its product with the factor, and of the sum (45_synth_control.md R131). -/
def FloatHost.smoothingError (h : FloatHost) (c t : ℚ) : ℚ :=
  let e1 := h.errorAt (t - c)
  let e2 := h.errorAt (|t - c| + e1)
  e1 + e2 + h.errorAt (max |c| |t| + e1 + e2)

/-- No result inside a smoothing step from c toward t with factor g overflows the format. -/
def FloatHost.NoOverflow (h : FloatHost) (c t g : ℚ) : Prop :=
  |t - c| ≤ h.largest ∧ |h.fl (t - c) * g| ≤ h.largest ∧ |c + h.fl (h.fl (t - c) * g)| ≤ h.largest

end Sys2Proof

namespace Sys2Proof.Machine

open Host (Outcome)

/-! ## Invariants (10_state.md R46) -/

/-- The invariants of R46. The two clauses about frequency values are those of the reference numerics. -/
structure Inv (s : State) : Prop where
  bmask_valid : s.bmask &&& ~~~bmaskValid = 0#32
  acc_sense : s.acc &&& ~~~sense = 0#32
  octPrev_controls : s.octPrev &&& ~~~octMask = 0#32
  oct_le : s.oct ≤ octMax
  octT_le : s.octT ≤ s.ticks
  glide_form : s.cfg.params.num = .exact → ∃ k : ℕ, k ≤ 12 ∧ s.glide = 1 / (10 * (k : ℚ) + 1)
  target_entry : s.targetFreq = 0 ∨ s.targetFreq ∈ s.cfg.params.note
  curFreq_nonneg : s.cfg.params.num = .exact → 0 ≤ s.curFreq
  driven_iff : s.sdrv = .high ↔ s.sstep = 1
  led_width : s.led < 2 ^ s.cfg.params.nLed

/-- `DUTY` is the table entry at the present phase: what R46 says holds after the first `OSC.TICK`. -/
def DutyTracks (s : State) : Prop :=
  s.cfg.params.sine[s.phase.toNat / prec % tableLen]? = some s.duty.toNat

/-- No mark is set: the premise of a claim about a trace (10_state.md R39). -/
def FaultFree (s : State) : Prop := s.faults = FaultSet.empty

/-- A quiescent end of a run: no tick pending, no scan half done, no mark (70_reset_and_hazards.md R184). -/
def Quiescent (s : State) : Prop := s.pend = false ∧ s.sstep = 0 ∧ FaultFree s

/-! ## Terms of statements -/

/-- Key k is the highest key of the mask that is held (30_encoding.md R68, R127). -/
def HighestKey (m : Word) (k : Nat) : Prop :=
  k ≤ 12 ∧ m.getLsbD k = true ∧ ∀ j, k < j → j ≤ 12 → m.getLsbD j = false

/-- Both octave controls are held: Glide-Adjust mode (R126). -/
def GlideAdjust (s : State) : Prop :=
  s.bmask.getLsbD bitOctDn = true ∧ s.bmask.getLsbD bitOctUp = true

/-- Some key is held. -/
def KeyHeld (s : State) : Prop := s.bmask &&& keyMask ≠ 0#32

/-- Every further pass of `SYN.STEP` has the target q and keeps the glide factor: no key is held; or one
stays held in Normal mode, under the octave as it stands; or one stays held in Glide-Adjust mode and its
factor is already set. -/
def FixedTarget (s : State) (q : ℚ) : Prop :=
  (¬KeyHeld s ∧ q = s.targetFreq) ∨
  (¬GlideAdjust s ∧ ∃ k, HighestKey s.bmask k ∧ s.cfg.params.note[12 * s.oct + k]? = some q) ∨
  (GlideAdjust s ∧ q = s.targetFreq ∧ ∃ k : ℕ, HighestKey s.bmask k ∧ s.glide = 1 / (10 * (k : ℚ) + 1))

/-- A rising edge of bit b between the last control tick and this one (44_octave_debounce.md R115). -/
def RisingEdge (s : State) (b : Nat) : Prop :=
  s.bmask.getLsbD b = true ∧ s.octPrev.getLsbD b = false

/-- The operations that store `INC` (10_state.md R22). -/
def writesInc : Instr → Bool
  | .oscWrinc _ => true
  | .oscSetf _ => true
  | .oscSetc => true
  | _ => false

/-- The operations the handler and the timer do not commute with (20_memory.md R57 c). -/
def sharesWithHandler : Instr → Bool
  | .oscWrinc _ => true
  | .oscSetf _ => true
  | .oscSetc => true
  | .irqDis => true
  | .irqEn => true
  | .reset => true
  | _ => false

/-- The eight operations of a scan (10_state.md R29). -/
def isScanOp : Instr → Bool
  | .tscCharge => true
  | .tscRelease => true
  | .tscSample _ _ => true
  | .tscFinish => true
  | _ => false

/-- The eight operations of one scan with given answers of the environment, in their order. -/
def scanOps (w : Checkpoint → Word) : List Instr :=
  [.tscCharge, .tscRelease, .tscSample .cp1 (w .cp1), .tscSample .cp2 (w .cp2),
   .tscSample .cp3 (w .cp3), .tscSample .cp4 (w .cp4), .tscSample .cp5 (w .cp5), .tscFinish]

/-- What may stand between the operations of a scan: sample ticks and waits (41_touch_scanner.md R86). -/
def mayInterleave : Instr → Bool
  | .tmrWrap => true
  | .oscTick => true
  | .dly _ => true
  | _ => false

/-- The elements 45_synth_control.md R146 gives to the foreground, taken from another state. -/
def State.withForeground (s u : State) : State :=
  { s with
    oct := u.oct, octPrev := u.octPrev, octT := u.octT, ticks := u.ticks, glide := u.glide,
    targetFreq := u.targetFreq, curFreq := u.curFreq, gate := u.gate, led := u.led,
    bmask := u.bmask, acc := u.acc, sstep := u.sstep, sdrv := u.sdrv }

/-- Changes the next state of an outcome, if there is one. -/
def mapNext (f : State → State) : Outcome State Fault Refusal → Outcome State Fault Refusal
  | .next s => .next (f s)
  | .fault r => .fault r
  | .refused r => .refused r

end Sys2Proof.Machine
end

