-- ==== Sys2Proof/Certificates/Slice0/Obligations.lean ====
section
/-! DEFINITION. Statements for the provers. -/

open Sys2Proof Sys2Proof.Machine

/-! ## Encoding (30_encoding.md) -/

/-- Every well-formed operation's trace word decodes to it. -/
def Obligations.DecodeOfEncodeIsTheOperation : Prop :=
  ∀ i : Instr, i.wellFormed = true → decode (encode i) = .ok i

/-- Every trace word that decodes is the encoding of a well-formed operation: each word has one meaning
and no bit of it is dropped. -/
def Obligations.EncodeOfDecodeIsTheWord : Prop :=
  ∀ (w : TraceWord) (i : Instr), decode w = .ok i → i.wellFormed = true ∧ encode i = w

/-- Which words are refused, and by which name (the encoding is the spec's decision D1). -/
def Obligations.RefusedWordsAndTheirReasons : Prop :=
  ∀ w : TraceWord,
    (decode w = .error .invalidWord ↔
      w.toNat / 2 ^ 32 ∉ [0x00, 0x01, 0x10, 0x11, 0x12, 0x21, 0x22, 0x23, 0x24, 0x25, 0x30, 0x31,
        0x40, 0x41, 0x42, 0x48, 0x49, 0x50, 0x51, 0x52] ∨
      (w.toNat / 2 ^ 32 ∈ [0x00, 0x10, 0x11, 0x12, 0x30, 0x31, 0x42, 0x48, 0x49, 0x50, 0x51, 0x52] ∧
        w.toNat % 2 ^ 32 ≠ 0)) ∧
    (decode w = .error .badFrequency ↔
      w.toNat / 2 ^ 32 = 0x41 ∧ binary32 (BitVec.ofNat 32 (w.toNat % 2 ^ 32)) = none)

/-- A stored operation is read back from its five bytes, and the bytes after it stay. -/
def Obligations.StoredBytesDecode : Prop :=
  ∀ (i : Instr) (rest : List Byte), i.wellFormed = true →
    decodeBytes (wordBytes (encode i) ++ rest) = .ok (i, rest)

/-- The value of a binary32 operand, by its fields; the layout is the spec's general knowledge K7. -/
def Obligations.Binary32OperandValue : Prop :=
  ∀ p : Word,
    let s : ℕ := p.toNat / 2 ^ 31
    let e : ℕ := p.toNat / 2 ^ 23 % 2 ^ 8
    let m : ℕ := p.toNat % 2 ^ 23
    (e = 255 → binary32 p = none) ∧
    (s = 1 → (e ≠ 0 ∨ m ≠ 0) → binary32 p = none) ∧
    (s = 1 → e = 0 → m = 0 → binary32 p = some 0) ∧
    (s = 0 → e = 0 → binary32 p = some ((m : ℚ) * (2 : ℚ) ^ (-149 : ℤ))) ∧
    (s = 0 → 1 ≤ e → e ≤ 254 →
      binary32 p = some ((2 ^ 23 + (m : ℚ)) * (2 : ℚ) ^ ((e : ℤ) - 150)))

/-- A few words of 95_test_vectors.md, read as it says. -/
def Obligations.TestVectorWordsDecode : Prop :=
  decodeTableWord 40 0x0000000000 = some .reset ∧
  decodeTableWord 40 0x0000000001 = none ∧
  decodeTableWord 40 0x01000003E8 = some (.dly 1000#32) ∧
  decodeTableWord 40 0x21007FFE00 = some (.tscSample .cp1 0x007FFE00#32) ∧
  decodeTableWord 40 0x25FFFFFFFF = some (.tscSample .cp5 0xFFFFFFFF#32) ∧
  decodeTableWord 40 0x26007FFF00 = none ∧
  decodeTableWord 40 0x40FFFFFFFF = some (.oscWrinc 0xFFFFFFFF#32) ∧
  decodeTableWord 40 0x4143DC0000 = some (.oscSetf 0x43DC0000#32) ∧
  decodeTableWord 40 0x41BF800000 = none ∧
  decodeTableWord 40 0x5200000000 = some .ctlAdv

/-! ## The step and the trace -/

/-- A step runs the decoded operation on the state with the rest of the trace; a refused word is refused
by its name; a trace that has ended stops the run. How the trace comes into the state is the model's
choice (assumption log 1). -/
def Obligations.StepRunsTheDecodedOperation : Prop :=
  (∀ (s : State) (w : TraceWord) (rest : List TraceWord) (i : Instr),
    s.trace = w :: rest → decode w = .ok i → step s = exec i { s with trace := rest }) ∧
  (∀ (s : State) (w : TraceWord) (rest : List TraceWord),
    s.trace = w :: rest → decode w = .error .invalidWord → step s = .refused .invalidWord) ∧
  (∀ (s : State) (w : TraceWord) (rest : List TraceWord),
    s.trace = w :: rest → decode w = .error .badFrequency → step s = .refused .badFrequency) ∧
  (∀ s : State, s.trace = [] → step s = .fault .traceEnd)

/-- The word placed where the step fetches is the one it runs (the model's choice, assumption log 1). -/
def Obligations.PlacedWordIsRun : Prop :=
  ∀ (s : State) (i : Instr), i.wellFormed = true →
    step (s.withFetchWord 40 (encode i).toNat) = exec i { s with trace := s.trace.tail }

/-- A trace of encoded operations, stepped through, does what its operations do one after the other: the
trace is carried along and read by nothing but the fetch. -/
def Obligations.SteppingATraceRunsItsOperations : Prop :=
  ∀ (ops : List Instr) (s : State) (rest : List TraceWord),
    (∀ i ∈ ops, i.wellFormed = true) →
    Sys2Proof.core.run ops.length { s with trace := ops.map encode ++ rest }
      = runOps ops { s with trace := rest }

/-! ## Reset and configuration -/

/-- `RESET` from any state: every element at its reset value, `DUTY` unconstrained. Most values are the
spec's own decisions D13, D14, D16, D18, D23 (assumption log 10); the configuration and the rest of the
trace stay. -/
def Obligations.ResetInitialisesEveryElement : Prop :=
  ∀ s : State, ∃ t : State, exec .reset s = .next t ∧
    t.phase = 0#64 ∧ t.inc = 0#32 ∧ t.pend = false ∧ t.ie = true ∧ t.sdrv = .hiz ∧ t.acc = 0#32 ∧
    t.sstep = 0 ∧ t.bmask = 0#32 ∧ t.oct = 2 ∧ t.octPrev = 0#32 ∧ t.octT = 0 ∧ t.ticks = 0 ∧
    t.glide = 1 ∧ t.targetFreq = 0 ∧ t.curFreq = 0 ∧ t.gate = false ∧ t.led = 0 ∧
    t.faults = FaultSet.empty ∧ t.cfg = s.cfg ∧ t.trace = s.trace

/-- What a configuration from outside is refused for, and that an accepted one starts the machine in the
reset state under it. The refusals are the spec's decision D23; the LED count and the check of entry 24
are the model's (assumption log 7). -/
def Obligations.ConfigurationCheck : Prop :=
  ∀ p : Params,
    let badRate := p.fs = 0
    let badTable := p.sine.length ≠ 512 ∨ (∃ v ∈ p.sine, 1023 < v) ∨ p.note.length ≠ 61 ∨
      (∃ q ∈ p.note, q < 0) ∨ p.note[24]? ≠ some (130813 / 1000)
    let badGroups := (∃ j k, j ≠ k ∧ p.group j &&& p.group k ≠ 0#32) ∨
      p.g1 ||| p.g2 ||| p.g3 ||| p.g4 ||| p.g5 ≠ 0x007FFF00#32
    (badRate → configure p = .refused .badRate) ∧
    (¬badRate → badTable → configure p = .refused .badTable) ∧
    (¬badRate → ¬badTable → badGroups → configure p = .refused .badGroups) ∧
    (¬badRate → ¬badTable → ¬badGroups → p.nLed < 5 → configure p = .refused .badLedCount) ∧
    (¬badRate → ¬badTable → ¬badGroups → 5 ≤ p.nLed →
      ∃ c : Config, c.params = p ∧ configure p = .next (State.resetWith c 0 []))

/-! ## Touch scanner (41_touch_scanner.md) -/

/-- `DLY n` changes no element (the spec's decision D24). -/
def Obligations.DelayChangesNothing : Prop :=
  ∀ (n : Word) (s : State), exec (.dly n) s = .next s

/-- `TSC.CHARGE`: when the sequencer is idle, the lines are driven and the last readings dropped, and
nothing else changes; otherwise it is refused. Dropping the readings here is the spec's decision D13. -/
def Obligations.ChargeStartsAScan : Prop :=
  ∀ s : State,
    (s.sstep = 0 → exec .tscCharge s = .next { s with sdrv := .high, acc := 0#32, sstep := 1 }) ∧
    (s.sstep ≠ 0 → exec .tscCharge s = .refused .scanOrder)

/-- `TSC.RELEASE`: after the charge, the lines become inputs, and nothing else changes. -/
def Obligations.ReleaseFloatsTheLines : Prop :=
  ∀ s : State,
    (s.sstep = 1 → exec .tscRelease s = .next { s with sdrv := .hiz, sstep := 2 }) ∧
    (s.sstep ≠ 1 → exec .tscRelease s = .refused .scanOrder)

/-- `TSC.SAMPLE k, w`: when checkpoint k is due, exactly the lines of group k that w shows high join the
readings, and nothing else changes but the sequencer. -/
def Obligations.SampleGathersItsGroup : Prop :=
  ∀ (k : Checkpoint) (w : Word) (s : State),
    (s.sstep.val = k.number + 1 →
      ∃ t : State, exec (.tscSample k w) s = .next t ∧ t.sstep.val = k.number + 2 ∧
        (∀ p, t.acc.getLsbD p = (s.acc.getLsbD p || (w.getLsbD p && (s.cfg.params.group k).getLsbD p))) ∧
        t = { s with acc := t.acc, sstep := t.sstep }) ∧
    (s.sstep.val ≠ k.number + 1 → exec (.tscSample k w) s = .refused .scanOrder)

/-- `TSC.FINISH`: after checkpoint 5, the readings are inverted once inside `SENSE` and remapped, and
nothing else changes but the sequencer. -/
def Obligations.FinishInvertsOnceAndRemaps : Prop :=
  ∀ s : State,
    (s.sstep = 7 →
      exec .tscFinish s = .next { s with bmask := remap (~~~s.acc &&& 0x007FFF00#32), sstep := 0 }) ∧
    (s.sstep ≠ 7 → exec .tscFinish s = .refused .scanOrder)

/-- The remap network, bit by bit. Raw bit 15 to bit 14 is the spec's decision D11. -/
def Obligations.RemapBitByBit : Prop :=
  ∀ t : Word,
    (∀ j, j < 6 → (remap t).getLsbD (5 - j) = t.getLsbD (8 + j)) ∧
    (∀ j, j < 7 → (remap t).getLsbD (6 + j) = t.getLsbD (16 + j)) ∧
    (remap t).getLsbD 13 = t.getLsbD 14 ∧ (remap t).getLsbD 14 = t.getLsbD 15 ∧
    (∀ b, 15 ≤ b → (remap t).getLsbD b = false)

/-- A whole scan, with sample ticks and waits placed anywhere inside it: the readings hold each line's
answer at the checkpoint of its own group and nothing else, and the mask is their inversion, remapped.
A scan with its waits and no sample tick runs to its end. -/
def Obligations.WholeScanClosedForm : Prop :=
  (∀ (w : Checkpoint → Word) (ops : List Instr) (s t : State),
    s.sstep = 0 → ops.filter isScanOp = scanOps w →
    (∀ i ∈ ops, isScanOp i = true ∨ mayInterleave i = true) →
    runOps ops s = .next t →
    t.sstep = 0 ∧ t.sdrv = .hiz ∧
    t.acc = (w .cp1 &&& s.cfg.params.g1) ||| (w .cp2 &&& s.cfg.params.g2) |||
      (w .cp3 &&& s.cfg.params.g3) ||| (w .cp4 &&& s.cfg.params.g4) ||| (w .cp5 &&& s.cfg.params.g5) ∧
    t.bmask = remap (sense &&& ~~~t.acc) ∧
    (∀ (k : Checkpoint) (p : Nat), (s.cfg.params.group k).getLsbD p = true →
      t.acc.getLsbD p = (w k).getLsbD p)) ∧
  (∀ (w1 w2 w3 w4 w5 : Word) (s : State), s.sstep = 0 →
    ∃ t : State, runOps (tscScan w1 w2 w3 w4 w5) s = .next t ∧
      t = { s with sdrv := .hiz, acc := t.acc, bmask := t.bmask })

/-- The sequencer's order: the scan operations move `SSTEP` by one, or from 7 back to 0, and no other
operation but `RESET` touches it or anything the scanner writes. -/
def Obligations.SequencerNeverSkips : Prop :=
  ∀ (i : Instr) (s t : State), exec i s = .next t → i ≠ .reset →
    (isScanOp i = true →
      t.sstep.val = s.sstep.val + 1 ∨ (s.sstep = 7 ∧ t.sstep = 0 ∧ i = .tscFinish)) ∧
    (isScanOp i = false →
      t.sstep = s.sstep ∧ t.sdrv = s.sdrv ∧ t.acc = s.acc ∧ t.bmask = s.bmask) ∧
    (t.bmask ≠ s.bmask → i = .tscFinish)

/-! ## Oscillator and sample tick (42_oscillator.md, 60_exceptions.md) -/

/-- `TMR.WRAP` always runs: it sets `PEND`, and marks a boundary that found the previous one unserved
(the spec's decision D9), and changes nothing else. -/
def Obligations.WrapSetsPendingOrMarksOverrun : Prop :=
  ∀ s : State,
    (s.pend = false → exec .tmrWrap s = .next { s with pend := true }) ∧
    (s.pend = true → exec .tmrWrap s = .next { s with faults := { s.faults with overrun := true } })

/-- `OSC.TICK`: when a tick is pending and not masked, it acknowledges, advances the phase modulo 2^64 and
writes the table entry at the ADVANCED phase, unchanged, to `DUTY`; nothing else changes. Otherwise it
has no step. -/
def Obligations.TickAdvancesThenLooksUp : Prop :=
  ∀ s : State,
    (s.pend = true → s.ie = true →
      ∃ t : State, exec .oscTick s = .next t ∧
        t = { s with pend := false, phase := t.phase, duty := t.duty } ∧
        t.phase.toNat = (s.phase.toNat + s.inc.toNat) % 2 ^ 64 ∧
        s.cfg.params.sine[t.phase.toNat / 128 % 512]? = some t.duty.toNat) ∧
    (s.pend = false → exec .oscTick s = .refused .noTickPending) ∧
    (s.pend = true → s.ie = false → exec .oscTick s = .refused .masked)

/-- Phase progression over any run that neither stores `INC` nor resets, whatever stands between the
ticks; and a run of n sample periods completes without a mark. It is the spec's own inference from
`OSC.TICK`; the index field is its decision D4 (assumption log 13). -/
def Obligations.PhaseProgression : Prop :=
  (∀ (ops : List Instr) (s t : State),
    (∀ i ∈ ops, i ≠ .reset ∧ writesInc i = false) → runOps ops s = .next t →
    t.phase.toNat = (s.phase.toNat + s.inc.toNat * ops.count .oscTick) % 2 ^ 64 ∧
    (0 < ops.count .oscTick →
      s.cfg.params.sine[(s.phase.toNat + s.inc.toNat * ops.count .oscTick) % 65536 / 128]?
        = some t.duty.toNat)) ∧
  (∀ (n : Nat) (s : State), s.pend = false → s.ie = true →
    ∃ t : State, runOps (oscRun n) s = .next t ∧
      t = { s with phase := t.phase, duty := t.duty })

/-- Setting a frequency and running n sample periods advances the phase by the increment times n: the
spec's own inference from the store and the tick. -/
def Obligations.SetFrequencyRoundTrip : Prop :=
  ∀ (f : Word) (q : ℚ) (n : Nat) (s : State),
    binary32 f = some q → s.pend = false → s.ie = true →
    ∃ t : State, runOps (.oscSetf f :: oscRun n) s = .next t ∧
      t.inc = freqToInc s.cfg q ∧
      t.phase.toNat = (s.phase.toNat + (freqToInc s.cfg q).toNat * n) % 2 ^ 64

/-- Two runs of one trace from states that differ only above bit 15 of the phase: both complete or
neither does, and at the end they agree on everything but those high bits, on `DUTY` above all. -/
def Obligations.OnlyTheLowSixteenPhaseBitsMatter : Prop :=
  ∀ (ops : List Instr) (s t : State) (q : Phase),
    q.toNat % 65536 = s.phase.toNat % 65536 → runOps ops s = .next t →
    ∃ u : State, runOps ops { s with phase := q } = .next u ∧
      u = { t with phase := u.phase } ∧ u.phase.toNat % 65536 = t.phase.toNat % 65536

/-- With a constant increment the phase returns to the same point of the waveform after n sample periods
exactly when n is a multiple of 65536 / gcd(INC, 65536). -/
def Obligations.WaveformPeriod : Prop :=
  ∀ (n : Nat) (s t : State), s.pend = false → s.ie = true → runOps (oscRun n) s = .next t →
    (t.phase.toNat % 65536 = s.phase.toNat % 65536 ↔ 65536 / Nat.gcd s.inc.toNat 65536 ∣ n)

/-- A period boundary, then any run without the handler and without a reset, then another boundary: the
run is marked `Overrun` and one tick stays pending (decision D9). -/
def Obligations.UnservedBoundaryIsMarked : Prop :=
  ∀ (ops : List Instr) (s t : State),
    .oscTick ∉ ops → .reset ∉ ops →
    runOps (.tmrWrap :: (ops ++ [.tmrWrap])) s = .next t →
    t.faults.overrun = true ∧ t.pend = true

/-- Who moves the interrupt's two bits, `RESET` apart: only `TMR.WRAP` sets `PEND`, only `OSC.TICK` clears
it, and only `IRQ.DIS` and `IRQ.EN` change `IE`. -/
def Obligations.InterruptBitsHaveOneWriter : Prop :=
  ∀ (i : Instr) (s t : State), exec i s = .next t → i ≠ .reset →
    (s.pend = false → t.pend = true → i = .tmrWrap) ∧
    (s.pend = true → t.pend = false → i = .oscTick) ∧
    (s.ie = true → t.ie = false → i = .irqDis) ∧
    (s.ie = false → t.ie = true → i = .irqEn)

/-! ## Frequency update (43_freq_update_sync.md) -/

/-- `OSC.WRINC v` stores v whole and changes nothing else, whether or not a tick is pending. -/
def Obligations.WriteIncStoresTheWholeWord : Prop :=
  ∀ (v : Word) (s : State), exec (.oscWrinc v) s = .next { s with inc := v }

/-- `OSC.SETF f` stores the increment of the literal frequency and changes nothing else; an operand that
is no frequency has no step. The spec refuses such an operand at decode; that a term with one exists and
`exec` refuses it by the same name is the model's (assumption log 18, where K7 is named). -/
def Obligations.SetFrequencyStoresItsIncrement : Prop :=
  ∀ (f : Word) (s : State),
    (∀ q, binary32 f = some q → exec (.oscSetf f) s = .next { s with inc := freqToInc s.cfg q }) ∧
    (binary32 f = none → exec (.oscSetf f) s = .refused .badFrequency)

/-- `OSC.SETC` stores the increment of `CUR_FREQ` and changes nothing else. -/
def Obligations.SetCurrentStoresItsIncrement : Prop :=
  ∀ s : State, exec .oscSetc s = .next { s with inc := freqToInc s.cfg s.curFreq }

/-- `IRQ.DIS` and `IRQ.EN` write `IE` and nothing else (the mask is the spec's decision D8). -/
def Obligations.MaskOperationsWriteOnlyIe : Prop :=
  ∀ s : State,
    exec .irqDis s = .next { s with ie := false } ∧ exec .irqEn s = .next { s with ie := true }

/-- The conversion under exact rationals: rounded toward zero and saturated, zero exactly below one unit,
saturated exactly from 65536 × `FS` on (the spec's decision D5). -/
def Obligations.ConversionValue : Prop :=
  ∀ (c : Config) (f : ℚ), c.params.num = .exact → 0 ≤ f →
    (freqToInc c f).toNat = min (2 ^ 32 - 1) ⌊f * 128 * 512 / (c.params.fs : ℚ)⌋.toNat ∧
    (freqToInc c f = 0#32 ↔ f < (c.params.fs : ℚ) / 65536) ∧
    (f < 65536 * (c.params.fs : ℚ) →
      ((freqToInc c f).toNat : ℤ) = ⌊f * 128 * 512 / (c.params.fs : ℚ)⌋) ∧
    (65536 * (c.params.fs : ℚ) ≤ f → freqToInc c f = 0xFFFFFFFF#32)

/-- The conversion is monotone. -/
def Obligations.ConversionIsMonotone : Prop :=
  ∀ (c : Config) (f1 f2 : ℚ), c.params.num = .exact → 0 ≤ f1 → f1 < f2 →
    (freqToInc c f1).toNat ≤ (freqToInc c f2).toNat

/-- What the model knows of a floating-point host's conversion: zero at zero, monotone, within one of the
exact quotient below saturation, and saturated from 2^32 on (the spec's decision D6; assumption log 6). -/
def Obligations.FloatingConversionBounds : Prop :=
  ∀ (c : Config) (host : Nat) (f : ℚ), c.params.num = .float host → 0 ≤ f →
    freqToInc c 0 = 0#32 ∧
    (∀ f2, f ≤ f2 → (freqToInc c f).toNat ≤ (freqToInc c f2).toNat) ∧
    (f * 65536 / (c.params.fs : ℚ) < 2 ^ 32 →
      |((freqToInc c f).toNat : ℚ) - f * 65536 / (c.params.fs : ℚ)| ≤ 1) ∧
    (2 ^ 32 ≤ f * 65536 / (c.params.fs : ℚ) → freqToInc c f = 0xFFFFFFFF#32)

/-- Hand-off: from an operation that leaves v in `INC` to the next store or reset, every tick, whatever
else runs, adds exactly v; `OSC.WRINC v` is such an operation. -/
def Obligations.HandOffUsesTheWholeStoredWord : Prop :=
  (∀ (i : Instr) (ops : List Instr) (s s1 t u : State),
    exec i s = .next s1 → (∀ j ∈ ops, j ≠ .reset ∧ writesInc j = false) →
    runOps ops s1 = .next t → exec .oscTick t = .next u →
    u.phase = t.phase + s1.inc.setWidth 64) ∧
  (∀ (v : Word) (s s1 : State), exec (.oscWrinc v) s = .next s1 → s1.inc = v)

/-- Between `IRQ.DIS` and the next `IRQ.EN` or reset no tick takes effect: a run that goes through holds
none, and the handler's registers stand still (the mask is the spec's decision D8). -/
def Obligations.NoTickInsideTheCriticalSection : Prop :=
  ∀ (ops : List Instr) (s t : State),
    .irqEn ∉ ops → .reset ∉ ops → runOps (.irqDis :: ops) s = .next t →
    .oscTick ∉ ops ∧ t.phase = s.phase ∧ t.duty = s.duty ∧ t.ie = false

/-! ## Ownership and ordering (20_memory.md, 60_exceptions.md) -/

/-- `PHASE` belongs to the handler: no other operation but `RESET` writes it, and none but `OSC.TICK`
reads it, since with any other phase it does the same to everything else. -/
def Obligations.PhaseBelongsToTheHandler : Prop :=
  ∀ (i : Instr) (s : State) (p : Phase), i ≠ .oscTick →
    (i ≠ .reset →
      exec i { s with phase := p } = mapNext (fun t => { t with phase := p }) (exec i s)) ∧
    (i = .reset → exec i { s with phase := p } = exec i s)

/-- `INC` is written by the three store operations and `RESET` only, and read by `OSC.TICK` only. -/
def Obligations.IncIsTheOnlySharedDatum : Prop :=
  (∀ (i : Instr) (s t : State), exec i s = .next t → i ≠ .reset → writesInc i = false →
    t.inc = s.inc) ∧
  (∀ (i : Instr) (s : State) (v : Word), i ≠ .oscTick → i ≠ .reset → writesInc i = false →
    exec i { s with inc := v } = mapNext (fun t => { t with inc := v }) (exec i s)) ∧
  (∀ (i : Instr) (s : State) (v : Word), i = .reset ∨ writesInc i = true →
    exec i { s with inc := v } = exec i s)

/-- No operation of the timer or the interrupt context reads or writes what belongs to the foreground:
with any other values there, it does the same and leaves those values. -/
def Obligations.TimerAndHandlerLeaveTheForegroundAlone : Prop :=
  ∀ (i : Instr) (s u : State), i.agent ≠ .fg →
    exec i (s.withForeground u) = mapNext (fun t => t.withForeground u) (exec i s)

/-- The timer and the handler commute with every foreground operation that stores neither `INC` nor `IE`
nor resets. -/
def Obligations.HandlerCommutesWithTheForeground : Prop :=
  ∀ (a i : Instr) (s t : State), a.agent ≠ .fg → i.agent = .fg → sharesWithHandler i = false →
    (runOps [a, i] s = .next t ↔ runOps [i, a] s = .next t)

/-- A mark once set is never cleared by an operation other than `RESET` (the marks are the spec's decision
D23). -/
def Obligations.MarksAreSticky : Prop :=
  ∀ (i : Instr) (s t : State), exec i s = .next t → i ≠ .reset →
    (s.faults.overrun = true → t.faults.overrun = true) ∧
    (s.faults.noteIndex = true → t.faults.noteIndex = true)

/-! ## Octave debounce (44_octave_debounce.md) -/

/-- `DEB.STEP` always runs. In Glide-Adjust mode, inside the lock-out window, or without an edge, it keeps
the octave; an edge outside the window moves it by one, clamped, and restarts the window, at the clamp
only when `CLAMP_RESTARTS`; on every tick it keeps the octave controls; and nothing else changes. Points
a, c and d are the spec's decision D15. -/
def Obligations.DebounceStep : Prop :=
  ∀ s : State,
    let kept : State := { s with octPrev := s.bmask &&& 0x00006000#32 }
    let moved : Nat → State := fun o =>
      { kept with
        oct := o
        octT := if o = s.oct ∧ s.cfg.params.clampRestarts = false then s.octT else s.ticks }
    (GlideAdjust s → exec .debStep s = .next kept) ∧
    (s.ticks - s.octT < s.cfg.params.debTicks → exec .debStep s = .next kept) ∧
    (¬RisingEdge s bitOctUp → ¬RisingEdge s bitOctDn → exec .debStep s = .next kept) ∧
    (¬GlideAdjust s → s.cfg.params.debTicks ≤ s.ticks - s.octT → RisingEdge s bitOctUp →
      exec .debStep s = .next (moved (min (s.oct + 1) 4))) ∧
    (¬GlideAdjust s → s.cfg.params.debTicks ≤ s.ticks - s.octT → RisingEdge s bitOctDn →
      exec .debStep s = .next (moved (s.oct - 1)))

/-- `OCT` is written by `DEB.STEP` only, `RESET` apart, which gives 2; from 0 to 4 an operation moves it by
at most one, and along every run it stays in 0 to 4. -/
def Obligations.OctaveStaysClamped : Prop :=
  (∀ (i : Instr) (s t : State), exec i s = .next t → i ≠ .reset → t.oct ≠ s.oct → i = .debStep) ∧
  (∀ (i : Instr) (s t : State), exec i s = .next t → i ≠ .reset → s.oct ≤ 4 →
    t.oct ≤ s.oct + 1 ∧ s.oct ≤ t.oct + 1) ∧
  (∀ s t : State, exec .reset s = .next t → t.oct = 2) ∧
  (∀ (ops : List Instr) (s t : State), s.oct ≤ 4 → runOps ops s = .next t → t.oct ≤ 4) ∧
  (∀ s t : State, s.oct = 4 → RisingEdge s bitOctUp → exec .debStep s = .next t → t.oct = 4) ∧
  (∀ s t : State, s.oct = 0 → RisingEdge s bitOctDn → exec .debStep s = .next t → t.oct = 0)

/-- Lock-out: after an accepted Octave-Up edge at t1, a second one at t2 with no other accepted edge
between makes one increment in all when t2 − t1 < `DEB_TICKS` and two when t2 − t1 ≥ `DEB_TICKS`. It is
the spec's own inference from `DEB.STEP`; that the window is counted in control ticks is its decision D14
(assumption log 15). -/
def Obligations.LockOutWindow : Prop :=
  ∀ s t u v : State, s.oct ≤ 2 →
    ¬GlideAdjust s → RisingEdge s bitOctUp → s.cfg.params.debTicks ≤ s.ticks - s.octT →
    exec .debStep s = .next t →
    u.cfg = s.cfg → u.oct = t.oct → u.octT = t.octT → s.ticks < u.ticks →
    ¬GlideAdjust u → RisingEdge u bitOctUp →
    exec .debStep u = .next v →
    (u.ticks - s.ticks < s.cfg.params.debTicks → v.oct = s.oct + 1) ∧
    (s.cfg.params.debTicks ≤ u.ticks - s.ticks → v.oct = s.oct + 2)

/-- From reset, whatever runs, the octave stays 2 through the first `DEB_TICKS` control ticks. It rests on
the reset value of `OCT_T`, the spec's decision D16 (assumption log 15). -/
def Obligations.FirstWindowAfterReset : Prop :=
  ∀ (c : Config) (d : Nat) (tr : List TraceWord) (ops : List Instr) (t : State),
    .reset ∉ ops → ops.count .ctlAdv < c.params.debTicks →
    runOps ops (State.resetWith c d tr) = .next t → t.oct = 2 ∧ t.octT = 0

/-! ## Synth state machine (45_synth_control.md) -/

/-- `SYN.STEP` in Glide-Adjust mode always runs: the gate closes, the target stays, a key sets the glide
factor and darkens the LEDs, no key keeps the factor and lights them all, and the smoothing uses the
factor of this tick; nothing else changes. On a floating-point host `fl` rounds where the rule has it
(decision D6). The order is the spec's decision D17. -/
def Obligations.GlideAdjustTick : Prop :=
  ∀ s : State, GlideAdjust s →
    ∃ t : State, exec .synStep s = .next t ∧
      t = { s with glide := t.glide, curFreq := t.curFreq, gate := false, led := t.led } ∧
      (¬KeyHeld s → t.glide = s.glide ∧ t.led = 2 ^ s.cfg.params.nLed - 1) ∧
      (∀ k, HighestKey s.bmask k →
        t.led = 0 ∧ (s.cfg.params.num = .exact → t.glide = 1 / (10 * (k : ℚ) + 1)) ∧
        (∀ host fl, s.cfg.params.num = .float host → fl = (Config.floatHost host).fl →
          t.glide = fl (1 / fl (fl (10 * (k : ℚ)) + 1)))) ∧
      (s.cfg.params.num = .exact → t.curFreq = s.curFreq + (s.targetFreq - s.curFreq) * t.glide) ∧
      (∀ host fl, s.cfg.params.num = .float host → fl = (Config.floatHost host).fl →
        t.curFreq = fl (s.curFreq + fl (fl (s.targetFreq - s.curFreq) * t.glide)))

/-- `SYN.STEP` in Normal mode always runs: with a key held and its index in range the target is that note
and the gate opens; without one the target stays and the gate closes; the smoothing uses the target of
this tick; nothing else changes. An index above 60, which no run reaches, sets the mark `NoteIndex`, and
its note is a free value (assumption log 4). The order is the spec's decision D17. -/
def Obligations.NormalPlayTick : Prop :=
  ∀ s : State, ¬GlideAdjust s →
    ∃ t : State, exec .synStep s = .next t ∧
      t = { s with
        targetFreq := t.targetFreq, curFreq := t.curFreq, gate := t.gate,
        led := 2 ^ s.oct % 2 ^ s.cfg.params.nLed, faults := t.faults, draws := t.draws } ∧
      (¬KeyHeld s → t.targetFreq = s.targetFreq ∧ t.gate = false ∧ t.faults = s.faults ∧
        t.draws = s.draws) ∧
      (∀ k, HighestKey s.bmask k → t.gate = true ∧
        (12 * s.oct + k ≤ 60 →
          s.cfg.params.note[12 * s.oct + k]? = some t.targetFreq ∧ t.faults = s.faults ∧
          t.draws = s.draws) ∧
        (60 < 12 * s.oct + k → t.faults = { s.faults with noteIndex := true })) ∧
      (s.cfg.params.num = .exact → t.curFreq = s.curFreq + (t.targetFreq - s.curFreq) * s.glide) ∧
      (∀ host fl, s.cfg.params.num = .float host → fl = (Config.floatHost host).fl →
        t.curFreq = fl (s.curFreq + fl (fl (t.targetFreq - s.curFreq) * s.glide)))

/-- Key priority: the highest key held selects the note in Normal mode and the glide factor in
Glide-Adjust mode, whatever lower keys are held. -/
def Obligations.HighestKeyWins : Prop :=
  ∀ (s t : State) (k : Nat), s.oct ≤ 4 → HighestKey s.bmask k → exec .synStep s = .next t →
    (¬GlideAdjust s → s.cfg.params.note[12 * s.oct + k]? = some t.targetFreq) ∧
    (GlideAdjust s → s.cfg.params.num = .exact → t.glide = 1 / (10 * (k : ℚ) + 1))

/-- Target retention: `TARGET_FREQ` changes only on a Normal-mode tick with a key held, `RESET` apart; with
no key held the gate closes and the target stays; while a key stays held the next pass takes the octave as
it then is. -/
def Obligations.TargetIsRetained : Prop :=
  (∀ (i : Instr) (s t : State), exec i s = .next t → i ≠ .reset → t.targetFreq ≠ s.targetFreq →
    i = .synStep ∧ ¬GlideAdjust s ∧ KeyHeld s) ∧
  (∀ s t : State, ¬KeyHeld s → exec .synStep s = .next t →
    t.gate = false ∧ t.targetFreq = s.targetFreq) ∧
  (∀ (s t : State) (k o : Nat), o ≤ 4 → ¬GlideAdjust s → HighestKey s.bmask k →
    exec .synStep { s with oct := o } = .next t → s.cfg.params.note[12 * o + k]? = some t.targetFreq)

/-- The glide factor of each key, and that the factor never leaves (0, 1] along any run. -/
def Obligations.GlideFactorRange : Prop :=
  (∀ (s t : State) (k : Nat), s.cfg.params.num = .exact → GlideAdjust s → HighestKey s.bmask k →
    exec .synStep s = .next t → t.glide = 1 / (10 * (k : ℚ) + 1)) ∧
  (∀ (ops : List Instr) (s t : State), s.cfg.params.num = .exact → 0 < s.glide → s.glide ≤ 1 →
    runOps ops s = .next t → 0 < t.glide ∧ t.glide ≤ 1)

/-- Smoothing over exact rationals: one tick moves `CUR_FREQ` toward this tick's target by this tick's
factor; a factor of 1 snaps; otherwise it stays between the two; and n ticks with a fixed target and
factor, with a key held or without, shrink the difference by (1 − g)^n, so that it falls below every bound
and vanishes only if it began at zero. It is the spec's own inference from `SYN.STEP`, whose use of this
tick's target and factor is its decision D17 (assumption log 16). -/
def Obligations.SmoothingConverges : Prop :=
  (∀ s t : State, s.cfg.params.num = .exact → exec .synStep s = .next t →
    t.curFreq - t.targetFreq = (1 - t.glide) * (s.curFreq - t.targetFreq) ∧
    (t.glide = 1 → t.curFreq = t.targetFreq) ∧
    (0 ≤ t.glide → t.glide ≤ 1 →
      min s.curFreq t.targetFreq ≤ t.curFreq ∧ t.curFreq ≤ max s.curFreq t.targetFreq)) ∧
  (∀ (n : Nat) (s : State) (q : ℚ), s.cfg.params.num = .exact → FixedTarget s q →
    ∃ t : State, runOps (List.replicate n .synStep) s = .next t ∧
      (0 < n ∨ q = s.targetFreq → t.targetFreq = q) ∧ t.glide = s.glide ∧
      t.curFreq - q = (1 - s.glide) ^ n * (s.curFreq - q) ∧
      (0 < s.glide → s.glide < 1 → s.curFreq ≠ q → t.curFreq ≠ q)) ∧
  (∀ (s : State) (q ε : ℚ), s.cfg.params.num = .exact → FixedTarget s q → 0 < s.glide → s.glide ≤ 1 →
    0 < ε →
    ∃ N : Nat, ∀ n ≥ N, ∀ t : State, runOps (List.replicate n .synStep) s = .next t →
      |t.curFreq - q| < ε)

/-- Smoothing on a floating-point host, with its error bound: a factor of 1 gives `fl(c + fl(t − c))`;
where nothing overflows, that is within the rounding errors of the target, and any factor in 0 to 1
shrinks the difference by 1 − g up to the rounding errors of the step. That the laws hold only so is the
spec's decision D6; the form of the bound is the model's (assumption log 6). -/
def Obligations.FloatingSmoothingBounds : Prop :=
  ∀ (s t : State) (host : Nat), s.cfg.params.num = .float host → exec .synStep s = .next t →
    let h := Config.floatHost host
    (t.glide = 1 → t.curFreq = h.fl (s.curFreq + h.fl (t.targetFreq - s.curFreq))) ∧
    (t.glide = 1 → h.NoOverflow s.curFreq t.targetFreq 1 →
      |t.curFreq - t.targetFreq| ≤ h.errorAt (t.targetFreq - s.curFreq) +
        h.errorAt (|t.targetFreq| + h.errorAt (t.targetFreq - s.curFreq))) ∧
    (0 ≤ t.glide → t.glide ≤ 1 → h.NoOverflow s.curFreq t.targetFreq t.glide →
      |t.curFreq - t.targetFreq| ≤ (1 - t.glide) * |s.curFreq - t.targetFreq| +
        h.smoothingError s.curFreq t.targetFreq)

/-- The note index is in range wherever the octave is, so no pass raises the mark; the top key of an octave
and the bottom key of the next read one entry. -/
def Obligations.NoteIndexInRange : Prop :=
  (∀ s t : State, s.oct ≤ 4 → exec .synStep s = .next t → t.faults = s.faults) ∧
  (∀ (s t u v : State), u.cfg = s.cfg → u.oct = s.oct + 1 → u.oct ≤ 4 →
    ¬GlideAdjust s → ¬GlideAdjust u → HighestKey s.bmask 12 → HighestKey u.bmask 0 →
    exec .synStep s = .next t → exec .synStep u = .next v → t.targetFreq = v.targetFreq)

/-- The note gate is open exactly after a Normal-mode tick with a key held; no operation but `SYN.STEP`
and `RESET` writes it; and the oscillator does not read it. -/
def Obligations.GateFollowsTheKeys : Prop :=
  (∀ s t : State, exec .synStep s = .next t → (t.gate = true ↔ ¬GlideAdjust s ∧ KeyHeld s)) ∧
  (∀ (i : Instr) (s t : State), exec i s = .next t → i ≠ .reset → t.gate ≠ s.gate → i = .synStep) ∧
  (∀ (s : State) (g : Bool),
    exec .oscTick { s with gate := g } = mapNext (fun t => { t with gate := g }) (exec .oscTick s))

/-- The LEDs after a pass: the octave's bit in Normal mode, dark or all lit in Glide-Adjust mode; the pins
carry the complement. The number of LEDs is the spec's decision D19. -/
def Obligations.LedsShowTheOctaveOrTheMode : Prop :=
  ∀ s t : State, s.oct ≤ 4 → exec .synStep s = .next t →
    (¬GlideAdjust s → t.led = 2 ^ s.oct) ∧
    (GlideAdjust s → KeyHeld s → t.led = 0) ∧
    (GlideAdjust s → ¬KeyHeld s → t.led = 2 ^ s.cfg.params.nLed - 1) ∧
    t.led < 2 ^ s.cfg.params.nLed ∧ t.ledPins + t.led = 2 ^ s.cfg.params.nLed - 1

/-- `CTL.ADV` counts one control tick and changes nothing else. -/
def Obligations.AdvanceCountsOneTick : Prop :=
  ∀ s : State, exec .ctlAdv s = .next { s with ticks := s.ticks + 1 }

/-! ## Invariants (10_state.md R46) -/

/-- Every step keeps the invariants. -/
def Obligations.EveryStepKeepsTheInvariants : Prop :=
  ∀ s t : State, Inv s → step s = .next t → Inv t

/-- The invariants hold in the reset state, under every configuration. -/
def Obligations.InvariantsHoldAtReset : Prop :=
  (∀ (c : Config) (d : Nat) (tr : List TraceWord), Inv (State.resetWith c d tr)) ∧ Inv State.reset

/-- Once `OSC.TICK` has run, `DUTY` is the table entry at the phase, and every operation but `RESET` keeps
it so. -/
def Obligations.DutyTracksThePhase : Prop :=
  (∀ s t : State, exec .oscTick s = .next t → DutyTracks t) ∧
  (∀ (i : Instr) (s t : State), exec i s = .next t → i ≠ .reset → DutyTracks s → DutyTracks t)

/-- In every state a trace reaches from reset the invariants hold; after the first `OSC.TICK` since the
last reset, `DUTY` is the table entry at the phase. -/
def Obligations.ReachableStatesMeetTheInvariants : Prop :=
  (∀ (c : Config) (d : Nat) (tr : List TraceWord) (ops : List Instr) (t : State),
    runOps ops (State.resetWith c d tr) = .next t → Inv t) ∧
  (∀ (c : Config) (d : Nat) (tr : List TraceWord) (before after : List Instr) (t : State),
    .reset ∉ after → runOps (before ++ .oscTick :: after) (State.resetWith c d tr) = .next t →
    DutyTracks t)
end

