-- ==== Sys2Proof/Laws/Config.lean ====
section
/-! SUPPORT. What a checked configuration is known to satisfy (00_scope.md R10, 60_exceptions.md R151). -/

namespace Sys2Proof

/-- A configuration passes its check exactly when every part does. -/
theorem Params.check_eq_none_iff (p : Params) :
    p.check = none ↔ p.fs ≠ 0 ∧ p.sineOk = true ∧ p.noteOk = true ∧ p.groupsOk = true ∧ 5 ≤ p.nLed := by
  unfold Params.check
  split_ifs <;> simp_all

theorem Config.fs_pos (c : Config) : 0 < c.params.fs :=
  Nat.pos_of_ne_zero ((Params.check_eq_none_iff _).1 c.checked).1

theorem Config.fs_cast_pos (c : Config) : (0 : ℚ) < (c.params.fs : ℚ) := by
  exact_mod_cast c.fs_pos

theorem Config.five_le_nLed (c : Config) : 5 ≤ c.params.nLed :=
  ((Params.check_eq_none_iff _).1 c.checked).2.2.2.2

theorem Config.sine_length (c : Config) : c.params.sine.length = tableLen := by
  have h := ((Params.check_eq_none_iff _).1 c.checked).2.1
  simp only [Params.sineOk, Bool.and_eq_true, beq_iff_eq] at h
  exact h.1

theorem Config.sine_lt (c : Config) {v : Nat} (hv : v ∈ c.params.sine) : v < ampLevels := by
  have h := ((Params.check_eq_none_iff _).1 c.checked).2.1
  simp only [Params.sineOk, Bool.and_eq_true, List.all_eq_true, decide_eq_true_eq] at h
  exact h.2 v hv

theorem Config.note_length (c : Config) : c.params.note.length = nNotes := by
  have h := ((Params.check_eq_none_iff _).1 c.checked).2.2.1
  simp only [Params.noteOk, Bool.and_eq_true, beq_iff_eq] at h
  exact h.1.1

theorem Config.note_nonneg (c : Config) {q : ℚ} (hq : q ∈ c.params.note) : 0 ≤ q := by
  have h := ((Params.check_eq_none_iff _).1 c.checked).2.2.1
  simp only [Params.noteOk, Bool.and_eq_true, List.all_eq_true, decide_eq_true_eq] at h
  exact h.1.2 q hq

theorem Config.note_24 (c : Config) : c.params.note[24]? = some (130813 / 1000) := by
  have h := ((Params.check_eq_none_iff _).1 c.checked).2.2.1
  simp only [Params.noteOk, Bool.and_eq_true, decide_eq_true_eq] at h
  exact h.2

/-- The union of the groups is `SENSE`. -/
theorem Config.groups_union (c : Config) :
    c.params.g1 ||| c.params.g2 ||| c.params.g3 ||| c.params.g4 ||| c.params.g5 = sense := by
  have h := ((Params.check_eq_none_iff _).1 c.checked).2.2.2.1
  simp only [Params.groupsOk, Bool.and_eq_true, beq_iff_eq] at h
  exact h.1.1.1.1.1.1.1.1.1.1

/-- Two different groups share no line. -/
theorem Config.groups_disjoint (c : Config) {j k : Checkpoint} (h : j ≠ k) :
    c.params.group j &&& c.params.group k = 0#32 := by
  have hg := ((Params.check_eq_none_iff _).1 c.checked).2.2.2.1
  simp only [Params.groupsOk, Bool.and_eq_true, beq_iff_eq] at hg
  obtain ⟨⟨⟨⟨⟨⟨⟨⟨⟨⟨-, h12⟩, h13⟩, h14⟩, h15⟩, h23⟩, h24⟩, h25⟩, h34⟩, h35⟩, h45⟩ := hg
  cases j <;> cases k <;> simp only [Params.group, ne_eq, reduceCtorEq, not_true_eq_false] at h ⊢ <;>
    first | assumption | (rw [BitVec.and_comm]; assumption)

/-- Every group lies inside `SENSE`. -/
theorem Config.group_sense (c : Config) (k : Checkpoint) : c.params.group k &&& ~~~sense = 0#32 := by
  rw [← c.groups_union]
  ext i hi
  cases k <;> simp [Params.group] <;> grind

/-- A group bit is a sense-line bit. -/
theorem Config.group_bit_sense (c : Config) {k : Checkpoint} {p : Nat}
    (h : (c.params.group k).getLsbD p = true) : sense.getLsbD p = true := by
  by_contra hs
  have hz := congrArg (fun w : Word => w.getLsbD p) (c.group_sense k)
  have hp : p < 32 := BitVec.lt_of_getLsbD h
  simp [BitVec.getLsbD_and, h] at hz
  exact hs (hz hp)

/-- Installing succeeds exactly on a configuration that passes its check. -/
theorem Params.install_ok_iff (p : Params) (c : Config) :
    p.install = .ok c ↔ c.params = p := by
  unfold Params.install
  constructor
  · intro h
    split at h
    · injection h with h; rw [← h]
    · cases h
  · rintro rfl
    split
    · rfl
    · rename_i r h; rw [c.checked] at h; cases h

end Sys2Proof
end

