-- ==== Sys2Proof/Laws/Decode.lean ====
section
/-! SUPPORT. The two fields of a trace word, and its five bytes (30_encoding.md R69). -/

namespace Sys2Proof

/-- The opcode field of a word put together from its fields. -/
@[simp] theorem opField_append (op : Byte) (arg : Word) : opField (op ++ arg) = op := by
  apply BitVec.eq_of_getLsbD_eq
  intro i hi
  simp only [opField, BitVec.getLsbD_extractLsb', BitVec.getLsbD_append]
  simp [hi]

/-- The operand field of a word put together from its fields. -/
@[simp] theorem argField_append (op : Byte) (arg : Word) : argField (op ++ arg) = arg := by
  apply BitVec.eq_of_getLsbD_eq
  intro i hi
  simp only [argField, BitVec.getLsbD_extractLsb', BitVec.getLsbD_append]
  simp [hi]

/-- A word is its two fields. -/
theorem append_fields (w : TraceWord) : (opField w ++ argField w : TraceWord) = w := by
  apply BitVec.eq_of_getLsbD_eq
  intro i hi
  simp only [opField, argField, BitVec.getLsbD_append, BitVec.getLsbD_extractLsb']
  split <;> rename_i h
  · simp [h]
  · simp [show i - 32 < 8 by omega, show 32 + (i - 32) = i by omega]

/-- The opcode field as a number. -/
theorem opField_toNat (w : TraceWord) : (opField w).toNat = w.toNat / 2 ^ 32 := by
  have := w.isLt
  simp [opField, BitVec.extractLsb'_toNat, Nat.shiftRight_eq_div_pow]
  omega

/-- The operand field as a number. -/
theorem argField_toNat (w : TraceWord) : (argField w).toNat = w.toNat % 2 ^ 32 := by
  simp [argField, BitVec.extractLsb'_toNat]

/-- A word is put together again from its five stored bytes. -/
theorem bytesWord_of_bytes (w : TraceWord) :
    bytesWord (w.extractLsb' 32 8) (w.extractLsb' 24 8) (w.extractLsb' 16 8) (w.extractLsb' 8 8)
      (w.extractLsb' 0 8) = w := by
  apply BitVec.eq_of_getLsbD_eq
  intro i hi
  simp only [bytesWord, BitVec.getLsbD_append, BitVec.getLsbD_extractLsb']
  interval_cases i <;> simp

end Sys2Proof
end

