-- ==== Sys2Proof/Laws/Operands.lean ====
section
/-! SUPPORT. What the derived quantities are (30_encoding.md R68). -/

namespace Sys2Proof

/-- The index is bits 15:7 of the phase as a number. -/
theorem idx_toNat (p : Phase) : (idx p).toNat = p.toNat / prec % tableLen := by
  simp [idx, BitVec.extractLsb'_toNat, Nat.shiftRight_eq_div_pow]

/-- `highestSet m n` is the greatest set bit at or below n. -/
theorem highestSet_eq_some_iff (m : Word) (n k : Nat) :
    highestSet m n = some k ↔
      k ≤ n ∧ m.getLsbD k = true ∧ ∀ j, k < j → j ≤ n → m.getLsbD j = false := by
  induction n with
  | zero =>
    simp only [highestSet]
    split <;> rename_i h
    · constructor
      · intro hk; cases hk; exact ⟨le_refl _, h, fun j h1 h2 => by omega⟩
      · rintro ⟨hk, -, -⟩; simp; omega
    · constructor
      · intro hk; cases hk
      · rintro ⟨hk, hs, -⟩; obtain rfl : k = 0 := by omega
        exact absurd hs h
  | succ n ih =>
    simp only [highestSet]
    split <;> rename_i h
    · constructor
      · intro hk; cases hk; exact ⟨le_refl _, h, fun j h1 h2 => by omega⟩
      · rintro ⟨hk, -, hz⟩
        by_cases he : k = n + 1
        · rw [he]
        · rw [hz (n + 1) (by omega) (le_refl _)] at h; cases h
    · rw [ih]
      constructor
      · rintro ⟨hk, hs, hz⟩
        refine ⟨by omega, hs, fun j h1 h2 => ?_⟩
        by_cases he : j = n + 1
        · rw [he]; simpa using h
        · exact hz j h1 (by omega)
      · rintro ⟨hk, hs, hz⟩
        refine ⟨?_, hs, fun j h1 h2 => hz j h1 (by omega)⟩
        by_contra hc
        obtain rfl : k = n + 1 := by omega
        exact h hs

/-- No set bit at or below n. -/
theorem highestSet_eq_none_iff (m : Word) (n : Nat) :
    highestSet m n = none ↔ ∀ j, j ≤ n → m.getLsbD j = false := by
  induction n with
  | zero =>
    simp only [highestSet]
    split <;> rename_i h
    · simp [h]
    · simpa using h
  | succ n ih =>
    simp only [highestSet]
    split <;> rename_i h
    · simp only [reduceCtorEq, false_iff, not_forall]
      exact ⟨n + 1, le_refl _, by simp [h]⟩
    · rw [ih]
      refine ⟨fun hz j hj => ?_, fun hz j hj => hz j (by omega)⟩
      by_cases he : j = n + 1
      · rw [he]; simpa using h
      · exact hz j (by omega)

/-- `Hsb` is the highest key held. -/
theorem hsb_eq_some_iff (m : Word) (k : Nat) :
    hsb m = some k ↔ k ≤ 12 ∧ m.getLsbD k = true ∧ ∀ j, k < j → j ≤ 12 → m.getLsbD j = false :=
  highestSet_eq_some_iff m 12 k

/-- The semitone offset is at most 12. -/
theorem hsb_le {m : Word} {k : Nat} (h : hsb m = some k) : k ≤ 12 := ((hsb_eq_some_iff m k).1 h).1

/-- Bit j of the key mask. -/
theorem keyMask_getLsbD (j : Nat) : keyMask.getLsbD j = decide (j ≤ 12) := by
  by_cases h : j < 32
  · interval_cases j <;> decide
  · rw [BitVec.getLsbD_of_ge _ _ (by omega)]; simp; omega

/-- `Hsb` is undefined exactly when no key is held: `m & KEY_MASK` = 0. -/
theorem hsb_eq_none_iff (m : Word) : hsb m = none ↔ m &&& keyMask = 0#32 := by
  rw [hsb, highestSet_eq_none_iff]
  constructor
  · intro h
    apply BitVec.eq_of_getLsbD_eq
    intro i hi
    rw [BitVec.getLsbD_and, keyMask_getLsbD, BitVec.getLsbD_zero]
    by_cases hk : i ≤ 12
    · simp [h i hk]
    · simp [hk]
  · intro h j hj
    have := congrArg (fun w : Word => w.getLsbD j) h
    simpa [BitVec.getLsbD_and, keyMask_getLsbD, hj] using this

/-- Under exact rationals nothing is rounded. -/
theorem round_exact {c : Config} (h : c.params.num = .exact) (q : ℚ) : round c q = q := by
  simp [round, h]

/-- Under a floating-point format the host's `fl` rounds. -/
theorem round_float {c : Config} {host : Nat} (h : c.params.num = .float host) (q : ℚ) :
    round c q = (Config.floatHost host).fl q := by
  simp [round, h]

/-- The glide factor on a floating-point host, with the roundings of R125. -/
theorem glideOf_float {c : Config} {host : Nat} (h : c.params.num = .float host) (s : Nat) :
    glideOf c s = (Config.floatHost host).fl
      (1 / (Config.floatHost host).fl ((Config.floatHost host).fl (10 * (s : ℚ)) + 1)) := by
  simp [glideOf, round_float h]

/-- The smoothing on a floating-point host, with the roundings of R125. -/
theorem smooth_float {c : Config} {host : Nat} (h : c.params.num = .float host) (cur t g : ℚ) :
    smooth c cur t g = (Config.floatHost host).fl
      (cur + (Config.floatHost host).fl ((Config.floatHost host).fl (t - cur) * g)) := by
  simp [smooth, round_float h]

/-- The glide factor under exact rationals (R129). -/
theorem glideOf_exact {c : Config} (h : c.params.num = .exact) (s : Nat) :
    glideOf c s = 1 / (10 * (s : ℚ) + 1) := by
  simp [glideOf, round_exact h]

/-- The smoothing under exact rationals (R130). -/
theorem smooth_exact {c : Config} (h : c.params.num = .exact) (cur t g : ℚ) :
    smooth c cur t g = cur + (t - cur) * g := by
  simp [smooth, round_exact h]

end Sys2Proof
end

