-- ==== Sys2Proof/Laws/State.lean ====
section
/-! SUPPORT. The fields of a state after each named update, and the fields of the reset state. -/

namespace Sys2Proof.Machine

/-! ## State.withTrace -/

@[simp] theorem State.withTrace_phase (s : State) (t : List TraceWord) :
    (s.withTrace t).phase = s.phase := rfl
@[simp] theorem State.withTrace_inc (s : State) (t : List TraceWord) :
    (s.withTrace t).inc = s.inc := rfl
@[simp] theorem State.withTrace_duty (s : State) (t : List TraceWord) :
    (s.withTrace t).duty = s.duty := rfl
@[simp] theorem State.withTrace_pend (s : State) (t : List TraceWord) :
    (s.withTrace t).pend = s.pend := rfl
@[simp] theorem State.withTrace_ie (s : State) (t : List TraceWord) :
    (s.withTrace t).ie = s.ie := rfl
@[simp] theorem State.withTrace_sdrv (s : State) (t : List TraceWord) :
    (s.withTrace t).sdrv = s.sdrv := rfl
@[simp] theorem State.withTrace_acc (s : State) (t : List TraceWord) :
    (s.withTrace t).acc = s.acc := rfl
@[simp] theorem State.withTrace_sstep (s : State) (t : List TraceWord) :
    (s.withTrace t).sstep = s.sstep := rfl
@[simp] theorem State.withTrace_bmask (s : State) (t : List TraceWord) :
    (s.withTrace t).bmask = s.bmask := rfl
@[simp] theorem State.withTrace_oct (s : State) (t : List TraceWord) :
    (s.withTrace t).oct = s.oct := rfl
@[simp] theorem State.withTrace_octPrev (s : State) (t : List TraceWord) :
    (s.withTrace t).octPrev = s.octPrev := rfl
@[simp] theorem State.withTrace_octT (s : State) (t : List TraceWord) :
    (s.withTrace t).octT = s.octT := rfl
@[simp] theorem State.withTrace_ticks (s : State) (t : List TraceWord) :
    (s.withTrace t).ticks = s.ticks := rfl
@[simp] theorem State.withTrace_glide (s : State) (t : List TraceWord) :
    (s.withTrace t).glide = s.glide := rfl
@[simp] theorem State.withTrace_targetFreq (s : State) (t : List TraceWord) :
    (s.withTrace t).targetFreq = s.targetFreq := rfl
@[simp] theorem State.withTrace_curFreq (s : State) (t : List TraceWord) :
    (s.withTrace t).curFreq = s.curFreq := rfl
@[simp] theorem State.withTrace_gate (s : State) (t : List TraceWord) :
    (s.withTrace t).gate = s.gate := rfl
@[simp] theorem State.withTrace_led (s : State) (t : List TraceWord) :
    (s.withTrace t).led = s.led := rfl
@[simp] theorem State.withTrace_faults (s : State) (t : List TraceWord) :
    (s.withTrace t).faults = s.faults := rfl
@[simp] theorem State.withTrace_cfg (s : State) (t : List TraceWord) :
    (s.withTrace t).cfg = s.cfg := rfl
@[simp] theorem State.withTrace_draws (s : State) (t : List TraceWord) :
    (s.withTrace t).draws = s.draws := rfl
@[simp] theorem State.withTrace_trace (s : State) (t : List TraceWord) :
    (s.withTrace t).trace = t := rfl

/-! ## State.raise -/

@[simp] theorem State.raise_phase (s : State) (m : FaultMark) :
    (s.raise m).phase = s.phase := rfl
@[simp] theorem State.raise_inc (s : State) (m : FaultMark) :
    (s.raise m).inc = s.inc := rfl
@[simp] theorem State.raise_duty (s : State) (m : FaultMark) :
    (s.raise m).duty = s.duty := rfl
@[simp] theorem State.raise_pend (s : State) (m : FaultMark) :
    (s.raise m).pend = s.pend := rfl
@[simp] theorem State.raise_ie (s : State) (m : FaultMark) :
    (s.raise m).ie = s.ie := rfl
@[simp] theorem State.raise_sdrv (s : State) (m : FaultMark) :
    (s.raise m).sdrv = s.sdrv := rfl
@[simp] theorem State.raise_acc (s : State) (m : FaultMark) :
    (s.raise m).acc = s.acc := rfl
@[simp] theorem State.raise_sstep (s : State) (m : FaultMark) :
    (s.raise m).sstep = s.sstep := rfl
@[simp] theorem State.raise_bmask (s : State) (m : FaultMark) :
    (s.raise m).bmask = s.bmask := rfl
@[simp] theorem State.raise_oct (s : State) (m : FaultMark) :
    (s.raise m).oct = s.oct := rfl
@[simp] theorem State.raise_octPrev (s : State) (m : FaultMark) :
    (s.raise m).octPrev = s.octPrev := rfl
@[simp] theorem State.raise_octT (s : State) (m : FaultMark) :
    (s.raise m).octT = s.octT := rfl
@[simp] theorem State.raise_ticks (s : State) (m : FaultMark) :
    (s.raise m).ticks = s.ticks := rfl
@[simp] theorem State.raise_glide (s : State) (m : FaultMark) :
    (s.raise m).glide = s.glide := rfl
@[simp] theorem State.raise_targetFreq (s : State) (m : FaultMark) :
    (s.raise m).targetFreq = s.targetFreq := rfl
@[simp] theorem State.raise_curFreq (s : State) (m : FaultMark) :
    (s.raise m).curFreq = s.curFreq := rfl
@[simp] theorem State.raise_gate (s : State) (m : FaultMark) :
    (s.raise m).gate = s.gate := rfl
@[simp] theorem State.raise_led (s : State) (m : FaultMark) :
    (s.raise m).led = s.led := rfl
@[simp] theorem State.raise_faults (s : State) (m : FaultMark) :
    (s.raise m).faults = s.faults.add m := rfl
@[simp] theorem State.raise_cfg (s : State) (m : FaultMark) :
    (s.raise m).cfg = s.cfg := rfl
@[simp] theorem State.raise_draws (s : State) (m : FaultMark) :
    (s.raise m).draws = s.draws := rfl
@[simp] theorem State.raise_trace (s : State) (m : FaultMark) :
    (s.raise m).trace = s.trace := rfl

/-! ## State.memWriteInc -/

@[simp] theorem State.memWriteInc_phase (s : State) (v : Word) :
    (s.memWriteInc v).phase = s.phase := rfl
@[simp] theorem State.memWriteInc_inc (s : State) (v : Word) :
    (s.memWriteInc v).inc = v := rfl
@[simp] theorem State.memWriteInc_duty (s : State) (v : Word) :
    (s.memWriteInc v).duty = s.duty := rfl
@[simp] theorem State.memWriteInc_pend (s : State) (v : Word) :
    (s.memWriteInc v).pend = s.pend := rfl
@[simp] theorem State.memWriteInc_ie (s : State) (v : Word) :
    (s.memWriteInc v).ie = s.ie := rfl
@[simp] theorem State.memWriteInc_sdrv (s : State) (v : Word) :
    (s.memWriteInc v).sdrv = s.sdrv := rfl
@[simp] theorem State.memWriteInc_acc (s : State) (v : Word) :
    (s.memWriteInc v).acc = s.acc := rfl
@[simp] theorem State.memWriteInc_sstep (s : State) (v : Word) :
    (s.memWriteInc v).sstep = s.sstep := rfl
@[simp] theorem State.memWriteInc_bmask (s : State) (v : Word) :
    (s.memWriteInc v).bmask = s.bmask := rfl
@[simp] theorem State.memWriteInc_oct (s : State) (v : Word) :
    (s.memWriteInc v).oct = s.oct := rfl
@[simp] theorem State.memWriteInc_octPrev (s : State) (v : Word) :
    (s.memWriteInc v).octPrev = s.octPrev := rfl
@[simp] theorem State.memWriteInc_octT (s : State) (v : Word) :
    (s.memWriteInc v).octT = s.octT := rfl
@[simp] theorem State.memWriteInc_ticks (s : State) (v : Word) :
    (s.memWriteInc v).ticks = s.ticks := rfl
@[simp] theorem State.memWriteInc_glide (s : State) (v : Word) :
    (s.memWriteInc v).glide = s.glide := rfl
@[simp] theorem State.memWriteInc_targetFreq (s : State) (v : Word) :
    (s.memWriteInc v).targetFreq = s.targetFreq := rfl
@[simp] theorem State.memWriteInc_curFreq (s : State) (v : Word) :
    (s.memWriteInc v).curFreq = s.curFreq := rfl
@[simp] theorem State.memWriteInc_gate (s : State) (v : Word) :
    (s.memWriteInc v).gate = s.gate := rfl
@[simp] theorem State.memWriteInc_led (s : State) (v : Word) :
    (s.memWriteInc v).led = s.led := rfl
@[simp] theorem State.memWriteInc_faults (s : State) (v : Word) :
    (s.memWriteInc v).faults = s.faults := rfl
@[simp] theorem State.memWriteInc_cfg (s : State) (v : Word) :
    (s.memWriteInc v).cfg = s.cfg := rfl
@[simp] theorem State.memWriteInc_draws (s : State) (v : Word) :
    (s.memWriteInc v).draws = s.draws := rfl
@[simp] theorem State.memWriteInc_trace (s : State) (v : Word) :
    (s.memWriteInc v).trace = s.trace := rfl

/-! ## State.nextDraw -/

@[simp] theorem State.nextDraw_phase (s : State) :
    (s.nextDraw).phase = s.phase := rfl
@[simp] theorem State.nextDraw_inc (s : State) :
    (s.nextDraw).inc = s.inc := rfl
@[simp] theorem State.nextDraw_duty (s : State) :
    (s.nextDraw).duty = s.duty := rfl
@[simp] theorem State.nextDraw_pend (s : State) :
    (s.nextDraw).pend = s.pend := rfl
@[simp] theorem State.nextDraw_ie (s : State) :
    (s.nextDraw).ie = s.ie := rfl
@[simp] theorem State.nextDraw_sdrv (s : State) :
    (s.nextDraw).sdrv = s.sdrv := rfl
@[simp] theorem State.nextDraw_acc (s : State) :
    (s.nextDraw).acc = s.acc := rfl
@[simp] theorem State.nextDraw_sstep (s : State) :
    (s.nextDraw).sstep = s.sstep := rfl
@[simp] theorem State.nextDraw_bmask (s : State) :
    (s.nextDraw).bmask = s.bmask := rfl
@[simp] theorem State.nextDraw_oct (s : State) :
    (s.nextDraw).oct = s.oct := rfl
@[simp] theorem State.nextDraw_octPrev (s : State) :
    (s.nextDraw).octPrev = s.octPrev := rfl
@[simp] theorem State.nextDraw_octT (s : State) :
    (s.nextDraw).octT = s.octT := rfl
@[simp] theorem State.nextDraw_ticks (s : State) :
    (s.nextDraw).ticks = s.ticks := rfl
@[simp] theorem State.nextDraw_glide (s : State) :
    (s.nextDraw).glide = s.glide := rfl
@[simp] theorem State.nextDraw_targetFreq (s : State) :
    (s.nextDraw).targetFreq = s.targetFreq := rfl
@[simp] theorem State.nextDraw_curFreq (s : State) :
    (s.nextDraw).curFreq = s.curFreq := rfl
@[simp] theorem State.nextDraw_gate (s : State) :
    (s.nextDraw).gate = s.gate := rfl
@[simp] theorem State.nextDraw_led (s : State) :
    (s.nextDraw).led = s.led := rfl
@[simp] theorem State.nextDraw_faults (s : State) :
    (s.nextDraw).faults = s.faults := rfl
@[simp] theorem State.nextDraw_cfg (s : State) :
    (s.nextDraw).cfg = s.cfg := rfl
@[simp] theorem State.nextDraw_draws (s : State) :
    (s.nextDraw).draws = s.draws + 1 := rfl
@[simp] theorem State.nextDraw_trace (s : State) :
    (s.nextDraw).trace = s.trace := rfl

/-! ## State.acknowledge -/

@[simp] theorem State.acknowledge_phase (s : State) :
    (s.acknowledge).phase = s.phase := rfl
@[simp] theorem State.acknowledge_inc (s : State) :
    (s.acknowledge).inc = s.inc := rfl
@[simp] theorem State.acknowledge_duty (s : State) :
    (s.acknowledge).duty = s.duty := rfl
@[simp] theorem State.acknowledge_pend (s : State) :
    (s.acknowledge).pend = false := rfl
@[simp] theorem State.acknowledge_ie (s : State) :
    (s.acknowledge).ie = s.ie := rfl
@[simp] theorem State.acknowledge_sdrv (s : State) :
    (s.acknowledge).sdrv = s.sdrv := rfl
@[simp] theorem State.acknowledge_acc (s : State) :
    (s.acknowledge).acc = s.acc := rfl
@[simp] theorem State.acknowledge_sstep (s : State) :
    (s.acknowledge).sstep = s.sstep := rfl
@[simp] theorem State.acknowledge_bmask (s : State) :
    (s.acknowledge).bmask = s.bmask := rfl
@[simp] theorem State.acknowledge_oct (s : State) :
    (s.acknowledge).oct = s.oct := rfl
@[simp] theorem State.acknowledge_octPrev (s : State) :
    (s.acknowledge).octPrev = s.octPrev := rfl
@[simp] theorem State.acknowledge_octT (s : State) :
    (s.acknowledge).octT = s.octT := rfl
@[simp] theorem State.acknowledge_ticks (s : State) :
    (s.acknowledge).ticks = s.ticks := rfl
@[simp] theorem State.acknowledge_glide (s : State) :
    (s.acknowledge).glide = s.glide := rfl
@[simp] theorem State.acknowledge_targetFreq (s : State) :
    (s.acknowledge).targetFreq = s.targetFreq := rfl
@[simp] theorem State.acknowledge_curFreq (s : State) :
    (s.acknowledge).curFreq = s.curFreq := rfl
@[simp] theorem State.acknowledge_gate (s : State) :
    (s.acknowledge).gate = s.gate := rfl
@[simp] theorem State.acknowledge_led (s : State) :
    (s.acknowledge).led = s.led := rfl
@[simp] theorem State.acknowledge_faults (s : State) :
    (s.acknowledge).faults = s.faults := rfl
@[simp] theorem State.acknowledge_cfg (s : State) :
    (s.acknowledge).cfg = s.cfg := rfl
@[simp] theorem State.acknowledge_draws (s : State) :
    (s.acknowledge).draws = s.draws := rfl
@[simp] theorem State.acknowledge_trace (s : State) :
    (s.acknowledge).trace = s.trace := rfl

/-! ## State.returnFromTick -/

@[simp] theorem State.returnFromTick_phase (s : State) :
    (s.returnFromTick).phase = s.phase := rfl
@[simp] theorem State.returnFromTick_inc (s : State) :
    (s.returnFromTick).inc = s.inc := rfl
@[simp] theorem State.returnFromTick_duty (s : State) :
    (s.returnFromTick).duty = s.duty := rfl
@[simp] theorem State.returnFromTick_pend (s : State) :
    (s.returnFromTick).pend = s.pend := rfl
@[simp] theorem State.returnFromTick_ie (s : State) :
    (s.returnFromTick).ie = s.ie := rfl
@[simp] theorem State.returnFromTick_sdrv (s : State) :
    (s.returnFromTick).sdrv = s.sdrv := rfl
@[simp] theorem State.returnFromTick_acc (s : State) :
    (s.returnFromTick).acc = s.acc := rfl
@[simp] theorem State.returnFromTick_sstep (s : State) :
    (s.returnFromTick).sstep = s.sstep := rfl
@[simp] theorem State.returnFromTick_bmask (s : State) :
    (s.returnFromTick).bmask = s.bmask := rfl
@[simp] theorem State.returnFromTick_oct (s : State) :
    (s.returnFromTick).oct = s.oct := rfl
@[simp] theorem State.returnFromTick_octPrev (s : State) :
    (s.returnFromTick).octPrev = s.octPrev := rfl
@[simp] theorem State.returnFromTick_octT (s : State) :
    (s.returnFromTick).octT = s.octT := rfl
@[simp] theorem State.returnFromTick_ticks (s : State) :
    (s.returnFromTick).ticks = s.ticks := rfl
@[simp] theorem State.returnFromTick_glide (s : State) :
    (s.returnFromTick).glide = s.glide := rfl
@[simp] theorem State.returnFromTick_targetFreq (s : State) :
    (s.returnFromTick).targetFreq = s.targetFreq := rfl
@[simp] theorem State.returnFromTick_curFreq (s : State) :
    (s.returnFromTick).curFreq = s.curFreq := rfl
@[simp] theorem State.returnFromTick_gate (s : State) :
    (s.returnFromTick).gate = s.gate := rfl
@[simp] theorem State.returnFromTick_led (s : State) :
    (s.returnFromTick).led = s.led := rfl
@[simp] theorem State.returnFromTick_faults (s : State) :
    (s.returnFromTick).faults = s.faults := rfl
@[simp] theorem State.returnFromTick_cfg (s : State) :
    (s.returnFromTick).cfg = s.cfg := rfl
@[simp] theorem State.returnFromTick_draws (s : State) :
    (s.returnFromTick).draws = s.draws := rfl
@[simp] theorem State.returnFromTick_trace (s : State) :
    (s.returnFromTick).trace = s.trace := rfl

/-! ## The reset state (10_state.md R45) -/

@[simp] theorem State.resetWith_phase (c : Config) (d : Nat) (t : List TraceWord) :
    (State.resetWith c d t).phase = 0#64 := rfl
@[simp] theorem State.resetWith_inc (c : Config) (d : Nat) (t : List TraceWord) :
    (State.resetWith c d t).inc = 0#32 := rfl
@[simp] theorem State.resetWith_duty (c : Config) (d : Nat) (t : List TraceWord) :
    (State.resetWith c d t).duty = Config.freeDuty d := rfl
@[simp] theorem State.resetWith_pend (c : Config) (d : Nat) (t : List TraceWord) :
    (State.resetWith c d t).pend = false := rfl
@[simp] theorem State.resetWith_ie (c : Config) (d : Nat) (t : List TraceWord) :
    (State.resetWith c d t).ie = true := rfl
@[simp] theorem State.resetWith_sdrv (c : Config) (d : Nat) (t : List TraceWord) :
    (State.resetWith c d t).sdrv = .hiz := rfl
@[simp] theorem State.resetWith_acc (c : Config) (d : Nat) (t : List TraceWord) :
    (State.resetWith c d t).acc = 0#32 := rfl
@[simp] theorem State.resetWith_sstep (c : Config) (d : Nat) (t : List TraceWord) :
    (State.resetWith c d t).sstep = 0 := rfl
@[simp] theorem State.resetWith_bmask (c : Config) (d : Nat) (t : List TraceWord) :
    (State.resetWith c d t).bmask = 0#32 := rfl
@[simp] theorem State.resetWith_oct (c : Config) (d : Nat) (t : List TraceWord) :
    (State.resetWith c d t).oct = octReset := rfl
@[simp] theorem State.resetWith_octPrev (c : Config) (d : Nat) (t : List TraceWord) :
    (State.resetWith c d t).octPrev = 0#32 := rfl
@[simp] theorem State.resetWith_octT (c : Config) (d : Nat) (t : List TraceWord) :
    (State.resetWith c d t).octT = 0 := rfl
@[simp] theorem State.resetWith_ticks (c : Config) (d : Nat) (t : List TraceWord) :
    (State.resetWith c d t).ticks = 0 := rfl
@[simp] theorem State.resetWith_glide (c : Config) (d : Nat) (t : List TraceWord) :
    (State.resetWith c d t).glide = 1 := rfl
@[simp] theorem State.resetWith_targetFreq (c : Config) (d : Nat) (t : List TraceWord) :
    (State.resetWith c d t).targetFreq = 0 := rfl
@[simp] theorem State.resetWith_curFreq (c : Config) (d : Nat) (t : List TraceWord) :
    (State.resetWith c d t).curFreq = 0 := rfl
@[simp] theorem State.resetWith_gate (c : Config) (d : Nat) (t : List TraceWord) :
    (State.resetWith c d t).gate = false := rfl
@[simp] theorem State.resetWith_led (c : Config) (d : Nat) (t : List TraceWord) :
    (State.resetWith c d t).led = 0 := rfl
@[simp] theorem State.resetWith_faults (c : Config) (d : Nat) (t : List TraceWord) :
    (State.resetWith c d t).faults = FaultSet.empty := rfl
@[simp] theorem State.resetWith_cfg (c : Config) (d : Nat) (t : List TraceWord) :
    (State.resetWith c d t).cfg = c := rfl
@[simp] theorem State.resetWith_draws (c : Config) (d : Nat) (t : List TraceWord) :
    (State.resetWith c d t).draws = d + 1 := rfl
@[simp] theorem State.resetWith_trace (c : Config) (d : Nat) (t : List TraceWord) :
    (State.resetWith c d t).trace = t := rfl

/-! ## Marks -/

@[simp] theorem FaultSet.add_overrun_overrun (f : FaultSet) : (f.add .overrun).overrun = true := rfl
@[simp] theorem FaultSet.add_overrun_noteIndex (f : FaultSet) :
    (f.add .overrun).noteIndex = f.noteIndex := rfl
@[simp] theorem FaultSet.add_noteIndex_overrun (f : FaultSet) :
    (f.add .noteIndex).overrun = f.overrun := rfl
@[simp] theorem FaultSet.add_noteIndex_noteIndex (f : FaultSet) :
    (f.add .noteIndex).noteIndex = true := rfl
@[simp] theorem FaultSet.empty_overrun : FaultSet.empty.overrun = false := rfl
@[simp] theorem FaultSet.empty_noteIndex : FaultSet.empty.noteIndex = false := rfl

end Sys2Proof.Machine
end

