-- ==== Sys2Proof/Laws/Ops.lean ====
section
/-! SUPPORT. What each shared operation can do, said once. -/

namespace Sys2Proof.Machine

open Host (Outcome)

/-- A scan operation that answers a next state was enabled, acted and moved the sequencer. -/
theorem scanStep_next_iff {need after : Fin 8} {act : State → State} {s t : State} :
    scanStep need after act s = .next t ↔ s.sstep = need ∧ t = { act s with sstep := after } := by
  unfold scanStep
  split <;> simp_all [eq_comm]

/-- A scan operation never faults, and is refused exactly out of order, with `ScanOrder`. -/
theorem scanStep_refused_iff {need after : Fin 8} {act : State → State} {s : State} {r : Refusal} :
    scanStep need after act s = .refused r ↔ s.sstep ≠ need ∧ r = .scanOrder := by
  unfold scanStep
  split <;> simp_all [eq_comm]

/-- A handler that ran was pending and enabled, and saw the acknowledged state. -/
theorem takeSampleTick_next_iff {h : State → State} {s t : State} :
    takeSampleTick h s = .next t ↔ s.pend = true ∧ s.ie = true ∧ t = h s.acknowledge := by
  unfold takeSampleTick State.returnFromTick
  cases s.pend <;> cases s.ie <;> simp [eq_comm]

/-- The interrupt is refused exactly when nothing is pending or the mask is set. -/
theorem takeSampleTick_refused_iff {h : State → State} {s : State} {r : Refusal} :
    takeSampleTick h s = .refused r ↔
      (s.pend = false ∧ r = .noTickPending) ∨ (s.pend = true ∧ s.ie = false ∧ r = .masked) := by
  unfold takeSampleTick
  cases s.pend <;> cases s.ie <;> simp [eq_comm]

/-- The checkpoint k is due at `SSTEP` = k + 1. -/
theorem dueStep_val (k : Checkpoint) : (dueStep k).val = k.number + 1 := by
  cases k <;> rfl

/-- Taking checkpoint k leaves `SSTEP` = k + 2. -/
theorem takenStep_val (k : Checkpoint) : (takenStep k).val = k.number + 2 := by
  cases k <;> rfl

/-- The wavetable entry reaches `DUTY` unchanged (42_oscillator.md R100). -/
theorem State.sineAt_entry (s : State) (i : TableIndex) :
    s.cfg.params.sine[i.toNat]? = some (s.sineAt i).toNat := by
  have hi : i.toNat < s.cfg.params.sine.length := by
    rw [s.cfg.sine_length]; exact i.isLt
  have hlt : s.cfg.params.sine[i.toNat] < 1024 := s.cfg.sine_lt (List.getElem_mem hi)
  rw [List.getElem?_eq_getElem hi, State.sineAt, List.getD_eq_getElem?_getD,
    List.getElem?_eq_getElem hi]
  simp [Nat.mod_eq_of_lt hlt]

/-- A note entry in range is read unchanged. -/
theorem State.noteAt_entry (s : State) {i : Nat} (h : i < nNotes) :
    s.cfg.params.note[i]? = some (s.noteAt i) := by
  have hi : i < s.cfg.params.note.length := by rw [s.cfg.note_length]; exact h
  simp [State.noteAt, List.getElem?_eq_getElem hi]

/-- Reading a note in range changes nothing; beyond the table it sets the mark and draws. -/
theorem readNote_cases (i : Nat) (s : State) :
    (i < nNotes ∧ readNote i s = (s.noteAt i, s)) ∨
      (nNotes ≤ i ∧ readNote i s = (Config.freeNote s.draws, (s.raise .noteIndex).nextDraw)) := by
  unfold readNote
  split <;> rename_i h
  · exact .inl ⟨h, rfl⟩
  · exact .inr ⟨by omega, rfl⟩

/-- Fetching takes the first word and leaves the rest. -/
theorem State.fetch_eq_some_iff {s s' : State} {w : TraceWord} :
    s.fetch = some (w, s') ↔ ∃ rest, s.trace = w :: rest ∧ s' = s.withTrace rest := by
  unfold State.fetch
  cases h : s.trace <;> simp [eq_comm, and_assoc]

/-- A step that answers a next state performed the decoded operation. -/
theorem step_next_iff {s t : State} :
    step s = .next t ↔
      ∃ w rest i, s.trace = w :: rest ∧ decode w = .ok i ∧ exec i (s.withTrace rest) = .next t := by
  unfold step State.fetch
  cases h : s.trace with
  | nil => simp
  | cons w rest => cases hd : decode w <;> simp [hd]

/-- A run of one more operation: the operation and then the rest. -/
theorem runOps_cons_next_iff {i : Instr} {is : List Instr} {s u : State} :
    runOps (i :: is) s = .next u ↔ ∃ t, exec i s = .next t ∧ runOps is t = .next u := by
  simp only [runOps]
  cases exec i s <;> simp

/-- A run in two parts. -/
theorem runOps_append_next_iff {as bs : List Instr} {s u : State} :
    runOps (as ++ bs) s = .next u ↔ ∃ t, runOps as s = .next t ∧ runOps bs t = .next u := by
  induction as generalizing s with
  | nil => simp [runOps]
  | cons a as ih =>
    rw [List.cons_append, runOps_cons_next_iff]
    constructor
    · rintro ⟨t, ht, h⟩
      obtain ⟨v, hv, hb⟩ := ih.1 h
      exact ⟨v, runOps_cons_next_iff.2 ⟨t, ht, hv⟩, hb⟩
    · rintro ⟨v, h, hb⟩
      obtain ⟨t, ht, hv⟩ := runOps_cons_next_iff.1 h
      exact ⟨t, ht, ih.2 ⟨v, hv, hb⟩⟩

/-- The octave controls decide the mode. -/
theorem both_eq_true_iff (m : Word) :
    both m = true ↔ m.getLsbD bitOctDn = true ∧ m.getLsbD bitOctUp = true := by
  simp [both]

/-- A rising edge, bit by bit. -/
theorem rise_eq_true_iff (m prev : Word) (b : Nat) :
    rise m prev b = true ↔ m.getLsbD b = true ∧ prev.getLsbD b = false := by
  simp [rise]

end Sys2Proof.Machine
end

