-- ==== Sys2Proof/Laws/Meanings.lean ====
section
/-! SUPPORT. What each meaning with a case of its own can do, said once: which elements it writes, and with
what. The other meanings are one update each. -/

namespace Sys2Proof.Machine

open Host (Outcome)

/-- `TMR.WRAP` answers a next state that differs in `PEND` and `FAULTS` only. -/
theorem execTmrWrap_eq (s : State) :
    execTmrWrap s = .next { s with
      pend := true, faults := if s.pend then s.faults.add .overrun else s.faults } := by
  unfold execTmrWrap State.raise
  cases s.pend <;> rfl

/-- `OSC.TICK`, when it runs, writes `PEND`, `PHASE` and `DUTY` only. -/
theorem execOscTick_next_iff {s t : State} :
    execOscTick s = .next t ↔ s.pend = true ∧ s.ie = true ∧
      t = { s with
        pend := false
        phase := s.phase + s.inc.setWidth 64
        duty := s.sineAt (idx (s.phase + s.inc.setWidth 64)) } := by
  rw [execOscTick, takeSampleTick_next_iff]
  rfl

/-- `OSC.SETF`, when it runs, writes `INC` only. -/
theorem execOscSetf_next_iff {f : Word} {s t : State} :
    execOscSetf f s = .next t ↔ ∃ q, binary32 f = some q ∧ t = { s with inc := freqToInc s.cfg q } := by
  unfold execOscSetf State.memWriteInc
  cases binary32 f <;> simp [eq_comm]

/-- `DEB.STEP` writes `OCT`, `OCT_T` and `OCT_PREV` only, the first two only on an accepted edge. -/
theorem execDebStep_cases (s : State) :
    (acceptedOctave s = none ∧ execDebStep s = .next { s with octPrev := s.bmask &&& octMask }) ∨
      ∃ o, acceptedOctave s = some o ∧
        execDebStep s = .next { s with
          oct := o
          octT := if o = s.oct && !s.cfg.params.clampRestarts then s.octT else s.ticks
          octPrev := s.bmask &&& octMask } := by
  unfold execDebStep
  cases h : acceptedOctave s with
  | none => exact .inl ⟨rfl, rfl⟩
  | some o => exact .inr ⟨o, rfl, rfl⟩

/-- An accepted edge: Normal mode, the window over, and Up, or else Down. -/
theorem acceptedOctave_eq_some_iff {s : State} {o : Nat} :
    acceptedOctave s = some o ↔
      both s.bmask = false ∧ s.cfg.params.debTicks ≤ s.ticks - s.octT ∧
        ((rise s.bmask s.octPrev bitOctUp = true ∧ o = min (s.oct + 1) octMax) ∨
          (rise s.bmask s.octPrev bitOctUp = false ∧ rise s.bmask s.octPrev bitOctDn = true ∧
            o = s.oct - 1)) := by
  have hw : ¬ s.ticks - s.octT < s.cfg.params.debTicks ↔ s.cfg.params.debTicks ≤ s.ticks - s.octT :=
    not_lt
  rw [← hw]
  unfold acceptedOctave
  cases both s.bmask <;> cases rise s.bmask s.octPrev bitOctUp <;>
    cases rise s.bmask s.octPrev bitOctDn <;>
    by_cases h : s.ticks - s.octT < s.cfg.params.debTicks <;>
    simp only [h, Bool.false_eq_true, if_true, if_false, Option.some.injEq, reduceCtorEq, false_and,
      and_false, true_and, or_false, false_or, not_true_eq_false, not_false_eq_true] <;>
    exact eq_comm

/-- An accepted edge leaves an octave that is at most one away, and at most 4 if the old one was. -/
theorem acceptedOctave_le {s : State} {o : Nat} (h : acceptedOctave s = some o) (ho : s.oct ≤ octMax) :
    o ≤ octMax := by
  obtain ⟨-, -, ⟨-, rfl⟩ | ⟨-, -, rfl⟩⟩ := acceptedOctave_eq_some_iff.1 h
  · exact min_le_right _ _
  · omega

/-- The four cases of `SYN.STEP`: Glide-Adjust or Normal mode, with a key or without. -/
theorem execSynStep_cases (s : State) :
    (both s.bmask = true ∧ ∃ k, hsb s.bmask = some k ∧
        execSynStep s = .next (synCommit (glideOf s.cfg k) s.targetFreq false 0 s)) ∨
      (both s.bmask = true ∧ hsb s.bmask = none ∧
        execSynStep s = .next (synCommit s.glide s.targetFreq false (ledAllOn s.cfg) s)) ∨
      (both s.bmask = false ∧ ∃ k, hsb s.bmask = some k ∧
        execSynStep s = .next (synCommit s.glide (readNote (noteIdx s.oct k) s).1 true
          (ledOctave s.cfg s.oct) (readNote (noteIdx s.oct k) s).2)) ∨
      (both s.bmask = false ∧ hsb s.bmask = none ∧
        execSynStep s = .next (synCommit s.glide s.targetFreq false (ledOctave s.cfg s.oct) s)) := by
  unfold execSynStep glideAdjust normalPlay
  cases hb : both s.bmask <;> cases hk : hsb s.bmask <;> simp

/-- `SYN.STEP` always runs and writes `GLIDE`, `TARGET_FREQ`, `CUR_FREQ`, `GATE` and `LED`, and beyond the
note table `FAULTS` and the count of draws. -/
theorem execSynStep_writes (s : State) :
    ∃ g t gate led f d, execSynStep s = .next { s with
      glide := g, targetFreq := t, curFreq := smooth s.cfg s.curFreq t g, gate := gate, led := led,
      faults := f, draws := d } ∧ (s.faults.overrun = f.overrun) ∧
      (s.faults.noteIndex = true → f.noteIndex = true) := by
  rcases execSynStep_cases s with ⟨-, k, -, h⟩ | ⟨-, -, h⟩ | ⟨-, k, -, h⟩ | ⟨-, -, h⟩
  · exact ⟨_, _, _, _, _, _, h, rfl, id⟩
  · exact ⟨_, _, _, _, _, _, h, rfl, id⟩
  · rcases readNote_cases (noteIdx s.oct k) s with ⟨-, hr⟩ | ⟨-, hr⟩ <;> rw [hr] at h
    · exact ⟨_, _, _, _, _, _, h, rfl, id⟩
    · exact ⟨_, _, _, _, _, _, h, rfl, fun _ => rfl⟩
  · exact ⟨_, _, _, _, _, _, h, rfl, id⟩

end Sys2Proof.Machine
end

