-- ==== Sys2Proof/Laws/PerInstr.lean ====
section
/-! SUPPORT. Families of lemmas over the constructors of `Instr`. -/

namespace Sys2Proof.Laws.OpcodeAssigned

/-- The opcode bytes 30_encoding.md R72 lists as assigned. -/
def assigned : List Byte :=
  [0x00#8, 0x01#8, 0x10#8, 0x11#8, 0x12#8, 0x21#8, 0x22#8, 0x23#8, 0x24#8, 0x25#8,
   0x30#8, 0x31#8, 0x40#8, 0x41#8, 0x42#8, 0x48#8, 0x49#8, 0x50#8, 0x51#8, 0x52#8]

/-- The opcode of the operation is one R72 assigns. -/
def Statement (i : Instr) : Prop := opcode i ∈ assigned

theorem reset : Statement .reset := by simp [Statement, opcode, assigned]
theorem dly (n : Word) : Statement (.dly n) := by simp [Statement, opcode, assigned]
theorem tscCharge : Statement .tscCharge := by simp [Statement, opcode, assigned]
theorem tscRelease : Statement .tscRelease := by simp [Statement, opcode, assigned]
theorem tscFinish : Statement .tscFinish := by simp [Statement, opcode, assigned]
theorem tscSample (k : Checkpoint) (w : Word) : Statement (.tscSample k w) := by
  cases k <;> simp [Statement, opcode, assigned]
theorem tmrWrap : Statement .tmrWrap := by simp [Statement, opcode, assigned]
theorem oscTick : Statement .oscTick := by simp [Statement, opcode, assigned]
theorem oscWrinc (v : Word) : Statement (.oscWrinc v) := by simp [Statement, opcode, assigned]
theorem oscSetf (f : Word) : Statement (.oscSetf f) := by simp [Statement, opcode, assigned]
theorem oscSetc : Statement .oscSetc := by simp [Statement, opcode, assigned]
theorem irqDis : Statement .irqDis := by simp [Statement, opcode, assigned]
theorem irqEn : Statement .irqEn := by simp [Statement, opcode, assigned]
theorem debStep : Statement .debStep := by simp [Statement, opcode, assigned]
theorem synStep : Statement .synStep := by simp [Statement, opcode, assigned]
theorem ctlAdv : Statement .ctlAdv := by simp [Statement, opcode, assigned]

end Sys2Proof.Laws.OpcodeAssigned
end

