-- ==== Sys2Proof/Machine/Text.lean ====
section
/-! DEFINITION. The text form of a trace (30_encoding.md R75): one operation a line, mnemonic first, then
its operands separated by commas; a semicolon starts a comment. Notation for traces; no step reads it.
Blanks between the parts, and lower-case hexadecimal digits, are allowed (DESIGN CHOICE, assumption log
19). -/

namespace Sys2Proof

/-! ## Reading -/

/-- The text before a semicolon. -/
def stripComment (cs : List Char) : List Char := cs.takeWhile (fun c => c != ';')

/-- A blank. -/
def isBlank (c : Char) : Bool := c == ' ' || c == '\t' || c == '\r'

/-- The text without blanks at either end. -/
def trimBlanks (cs : List Char) : List Char :=
  ((cs.dropWhile isBlank).reverse.dropWhile isBlank).reverse

/-- The parts of a text between commas. -/
def splitCommas : List Char → List (List Char)
  | [] => [[]]
  | c :: cs =>
    match splitCommas cs with
    | [] => [[]]
    | p :: ps => if c == ',' then [] :: p :: ps else (c :: p) :: ps

/-- The value of a decimal digit. -/
def decDigit (c : Char) : Option Nat :=
  if 48 ≤ c.toNat && c.toNat ≤ 57 then some (c.toNat - 48) else none

/-- The value of a hexadecimal digit. -/
def hexDigit (c : Char) : Option Nat :=
  if 48 ≤ c.toNat && c.toNat ≤ 57 then some (c.toNat - 48)
  else if 65 ≤ c.toNat && c.toNat ≤ 70 then some (c.toNat - 55)
  else if 97 ≤ c.toNat && c.toNat ≤ 102 then some (c.toNat - 87)
  else none

/-- Reads digits of a base into an accumulator; every character must be a digit. -/
def readDigits (digit : Char → Option Nat) (base : Nat) : Nat → List Char → Option Nat
  | acc, [] => some acc
  | acc, c :: cs =>
    match digit c with
    | some d => readDigits digit base (acc * base + d) cs
    | none => none

/-- A number that is not empty. -/
def readNat (digit : Char → Option Nat) (base : Nat) (cs : List Char) : Option Nat :=
  if cs.isEmpty then none else readDigits digit base 0 cs

/-- A number as a 32-bit word, if it is one. -/
def asWord (n : Nat) : Option Word := if n < 2 ^ 32 then some (BitVec.ofNat 32 n) else none

/-- A hexadecimal operand `0x…`: w, and a pattern. -/
def readHexWord : List Char → Option Word
  | '0' :: 'x' :: cs => (readNat hexDigit 16 cs).bind asWord
  | _ => none

/-- An operand n or v: decimal or `0x` hexadecimal, 0 to 2^32 − 1. -/
def readWord (cs : List Char) : Option Word :=
  match cs with
  | '0' :: 'x' :: _ => readHexWord cs
  | _ => (readNat decDigit 10 cs).bind asWord

/-- An operand k, 1 to 5. -/
def readCheckpoint : List Char → Option Checkpoint
  | ['1'] => some .cp1
  | ['2'] => some .cp2
  | ['3'] => some .cp3
  | ['4'] => some .cp4
  | ['5'] => some .cp5
  | _ => none

/-- The pattern with exponent field e whose value is exactly n / d, if there is one (R71). -/
def exactAt (n d e : Nat) : Option Word :=
  if e = 0 then
    if n * 2 ^ 149 % d = 0 && decide (n * 2 ^ 149 / d < 2 ^ 23) then some (BitVec.ofNat 32 (n * 2 ^ 149 / d))
    else none
  else
    let m := n * 2 ^ 150 / (d * 2 ^ e)
    if n * 2 ^ 150 % (d * 2 ^ e) = 0 && decide (2 ^ 23 ≤ m) && decide (m < 2 ^ 24) then
      some (BitVec.ofNat 32 (e * 2 ^ 23 + (m - 2 ^ 23)))
    else none

/-- The binary32 pattern of n / d, if n / d is exactly representable (R75). -/
def exactBinary32 (n d : Nat) : Option Word := (List.range 255).findSome? (exactAt n d)

/-- An operand f: a decimal literal that binary32 represents exactly, or `=` and a bit pattern (R75). -/
def readFrequency (cs : List Char) : Option Word :=
  match cs with
  | '=' :: p => readHexWord p
  | _ =>
    let whole := cs.takeWhile (fun c => c != '.')
    match cs.dropWhile (fun c => c != '.') with
    | [] => (readNat decDigit 10 whole).bind (fun n => exactBinary32 n 1)
    | _ :: frac =>
      if whole.isEmpty || frac.isEmpty then none
      else (readNat decDigit 10 (whole ++ frac)).bind (fun n => exactBinary32 n (10 ^ frac.length))

/-- The operations without operands, by mnemonic (R70). -/
def plainMnemonics : List (List Char × Instr) :=
  [("RESET".toList, .reset), ("TSC.CHARGE".toList, .tscCharge), ("TSC.RELEASE".toList, .tscRelease),
   ("TSC.FINISH".toList, .tscFinish), ("TMR.WRAP".toList, .tmrWrap), ("OSC.TICK".toList, .oscTick),
   ("OSC.SETC".toList, .oscSetc), ("IRQ.DIS".toList, .irqDis), ("IRQ.EN".toList, .irqEn),
   ("DEB.STEP".toList, .debStep), ("SYN.STEP".toList, .synStep), ("CTL.ADV".toList, .ctlAdv)]

/-- The operation of a mnemonic and its operands. -/
def readOperation (m : List Char) (args : List (List Char)) : Option Instr :=
  match args with
  | [] => (plainMnemonics.find? (fun p => p.1 == m)).map (fun p => p.2)
  | [a] =>
    if m = "DLY".toList then (readWord a).map .dly
    else if m = "OSC.WRINC".toList then (readWord a).map .oscWrinc
    else if m = "OSC.SETF".toList then (readFrequency a).map .oscSetf
    else none
  | [a, b] =>
    if m = "TSC.SAMPLE".toList then
      (readCheckpoint a).bind (fun k => (readHexWord b).map (.tscSample k))
    else none
  | _ => none

/-- What a line of a trace's text holds. -/
inductive Line where
  | blank                -- nothing, or a comment
  | operation (i : Instr)
  | malformed            -- not a line of R75
  deriving DecidableEq, Repr

/-- Reads one line. An operation that the decoder would refuse is no line of a trace. -/
def readLine (cs : List Char) : Line :=
  let t := trimBlanks (stripComment cs)
  if t.isEmpty then .blank
  else
    let m := t.takeWhile (fun c => !isBlank c)
    let rest := trimBlanks (t.dropWhile (fun c => !isBlank c))
    let args := if rest.isEmpty then [] else (splitCommas rest).map trimBlanks
    match readOperation m args with
    | some i => if i.wellFormed then .operation i else .malformed
    | none => .malformed

/-- Reads the lines of a text: its operations in order, or none where a line is malformed. -/
def readTrace : List (List Char) → Option (List Instr)
  | [] => some []
  | l :: ls =>
    match readLine l with
    | .blank => readTrace ls
    | .operation i => (readTrace ls).map (i :: ·)
    | .malformed => none

/-! ## Writing -/

/-- The character of a hexadecimal digit. -/
def hexChar (d : Nat) : Char := if d < 10 then Char.ofNat (48 + d) else Char.ofNat (55 + d)

/-- The lowest n hexadecimal digits of a number, most significant first. -/
def hexDigits : Nat → Nat → List Char
  | 0, _ => []
  | n + 1, v => hexDigits n (v / 16) ++ [hexChar (v % 16)]

/-- A word as `0x` and eight digits. -/
def hexWord (w : Word) : List Char := '0' :: 'x' :: hexDigits 8 w.toNat

/-- The character of a checkpoint number. -/
def checkpointChar (k : Checkpoint) : Char := Char.ofNat (48 + k.number)

/-- The line of an operation. -/
def writeLine : Instr → List Char
  | .reset => "RESET".toList
  | .dly n => "DLY ".toList ++ hexWord n
  | .tscCharge => "TSC.CHARGE".toList
  | .tscRelease => "TSC.RELEASE".toList
  | .tscFinish => "TSC.FINISH".toList
  | .tscSample k w => "TSC.SAMPLE ".toList ++ checkpointChar k :: ',' :: ' ' :: hexWord w
  | .tmrWrap => "TMR.WRAP".toList
  | .oscTick => "OSC.TICK".toList
  | .oscWrinc v => "OSC.WRINC ".toList ++ hexWord v
  | .oscSetf f => "OSC.SETF =".toList ++ hexWord f
  | .oscSetc => "OSC.SETC".toList
  | .irqDis => "IRQ.DIS".toList
  | .irqEn => "IRQ.EN".toList
  | .debStep => "DEB.STEP".toList
  | .synStep => "SYN.STEP".toList
  | .ctlAdv => "CTL.ADV".toList

end Sys2Proof
end

