-- ==== Sys2Proof/Tests/Slice0.lean ====
section
/-! SUPPORT. The author's own tests. Expected values are those of 95_test_vectors.md, whose vector is named
in each docstring; the decoder's words are written out from 30_encoding.md R70. At the end, a state that
meets the hypotheses of each statement that has some. -/

namespace Sys2Proof.Tests

open Sys2Proof Sys2Proof.Machine
open Host (Outcome)

/-- The outcome is a next state with a property. -/
def ok (o : Outcome State Fault Refusal) (p : State → Bool) : Bool :=
  match o with
  | .next t => p t
  | _ => false

/-! ## WellFormed: the decoder and the meaning refuse an ill-formed term -/

theorem test_wf_negative_refused : (Instr.oscSetf 0xBF800000#32).wellFormed = false := by decide
theorem test_wf_infinity_refused : (Instr.oscSetf 0x7F800000#32).wellFormed = false := by decide
theorem test_wf_negative_infinity_refused : (Instr.oscSetf 0xFF800000#32).wellFormed = false := by decide
theorem test_wf_nan_refused : (Instr.oscSetf 0x7FC00000#32).wellFormed = false := by decide
theorem test_wf_negative_zero_accepted : (Instr.oscSetf 0x80000000#32).wellFormed = true := by decide
theorem test_wf_largest_accepted : (Instr.oscSetf 0x7F7FFFFF#32).wellFormed = true := by decide
theorem test_decode_ill_formed :
    decode (encode (.oscSetf 0xBF800000#32)) = .error .badFrequency := by decide
theorem test_exec_ill_formed :
    exec (.oscSetf 0xBF800000#32) State.reset = .refused .badFrequency := rfl

/-! ## Decode: a word of every row, written out from R70 -/

theorem test_decode_reset : decode 0x0000000000#40 = .ok .reset := by decide
theorem test_decode_dly : decode 0x01000003E8#40 = .ok (.dly 1000#32) := by decide
theorem test_decode_charge : decode 0x1000000000#40 = .ok .tscCharge := by decide
theorem test_decode_release : decode 0x1100000000#40 = .ok .tscRelease := by decide
theorem test_decode_finish : decode 0x1200000000#40 = .ok .tscFinish := by decide
theorem test_decode_sample_1 : decode 0x21007FFE00#40 = .ok (.tscSample .cp1 0x007FFE00#32) := by decide
theorem test_decode_sample_2 : decode 0x22007FDF00#40 = .ok (.tscSample .cp2 0x007FDF00#32) := by decide
theorem test_decode_sample_3 : decode 0x23007EBF00#40 = .ok (.tscSample .cp3 0x007EBF00#32) := by decide
theorem test_decode_sample_4 : decode 0x240077FF00#40 = .ok (.tscSample .cp4 0x0077FF00#32) := by decide
theorem test_decode_sample_5 : decode 0x25FFFFFFFF#40 = .ok (.tscSample .cp5 0xFFFFFFFF#32) := by decide
theorem test_decode_wrap : decode 0x3000000000#40 = .ok .tmrWrap := by decide
theorem test_decode_tick : decode 0x3100000000#40 = .ok .oscTick := by decide
theorem test_decode_wrinc : decode 0x40000002C4#40 = .ok (.oscWrinc 708#32) := by decide
theorem test_decode_setf : decode 0x4143DC0000#40 = .ok (.oscSetf 0x43DC0000#32) := by decide
theorem test_decode_setc : decode 0x4200000000#40 = .ok .oscSetc := by decide
theorem test_decode_irq_dis : decode 0x4800000000#40 = .ok .irqDis := by decide
theorem test_decode_irq_en : decode 0x4900000000#40 = .ok .irqEn := by decide
theorem test_decode_deb : decode 0x5000000000#40 = .ok .debStep := by decide
theorem test_decode_syn : decode 0x5100000000#40 = .ok .synStep := by decide
theorem test_decode_adv : decode 0x5200000000#40 = .ok .ctlAdv := by decide

/-! Refused words: a format-N word with an operand, opcodes without a row, checkpoints 0 and 6 (R72). -/

theorem test_refused_no_operand : decode 0x0000000001#40 = .error .invalidWord := by decide
theorem test_refused_tick_operand : decode 0x3100000001#40 = .error .invalidWord := by decide
theorem test_refused_opcode_02 : decode 0x0200000000#40 = .error .invalidWord := by decide
theorem test_refused_opcode_13 : decode 0x1300000000#40 = .error .invalidWord := by decide
theorem test_refused_checkpoint_0 : decode 0x2000000000#40 = .error .invalidWord := by decide
theorem test_refused_checkpoint_6 : decode 0x26007FFF00#40 = .error .invalidWord := by decide
theorem test_refused_opcode_43 : decode 0x4300000000#40 = .error .invalidWord := by decide
theorem test_refused_opcode_FF : decode 0xFF00000000#40 = .error .invalidWord := by decide
/-- Minus one, plus infinity, a NaN: vector V-S1. -/
theorem test_refused_negative : decode 0x41BF800000#40 = .error .badFrequency := by decide
theorem test_refused_infinity : decode 0x417F800000#40 = .error .badFrequency := by decide
theorem test_refused_nan : decode 0x417FC00000#40 = .error .badFrequency := by decide
theorem test_encode_setf : encode (.oscSetf 0x43DC0000#32) = 0x4143DC0000#40 := by decide

/-- A stored word is opcode byte first, then the operand's most significant byte (R69). -/
theorem test_stored_bytes :
    decodeBytes [0x41#8, 0x43#8, 0xDC#8, 0x00#8, 0x00#8, 0x31#8]
      = .ok (.oscSetf 0x43DC0000#32, [0x31#8]) := by decide

theorem test_stored_bytes_short :
    decodeBytes [0x41#8, 0x43#8, 0xDC#8, 0x00#8] = .error .shortWord := by decide

/-! ## Text form (R75) -/

theorem test_text_setf :
    readLine "  OSC.SETF 440.0 ; A4".toList = .operation (.oscSetf 0x43DC0000#32) := by decide +kernel
theorem test_text_sample :
    readLine "TSC.SAMPLE 1, 0x007FFE00".toList = .operation (.tscSample .cp1 0x007FFE00#32) := by
  decide +kernel
/-- 130.813 is not representable in binary32. -/
theorem test_text_inexact : readLine "OSC.SETF 130.813".toList = .malformed := by decide +kernel

/-! ## One step of each operation -/

/-- Vector V-T3: charge from idle, a second one refused. -/
theorem test_charge :
    ok (exec .tscCharge { State.reset with acc := sense }) (fun t =>
      t.sdrv == .high && t.acc == 0#32 && t.sstep == 1) = true := by decide +kernel
theorem test_charge_reentrant :
    exec .tscCharge { State.reset with sstep := 1 } = .refused .scanOrder := rfl

theorem test_release :
    ok (exec .tscRelease { State.reset with sstep := 1, sdrv := .high }) (fun t =>
      t.sdrv == .hiz && t.sstep == 2) = true := by decide +kernel

/-- The example of R83, and a checkpoint out of turn. -/
theorem test_sample :
    ok (exec (.tscSample .cp1 0x007FFD00#32) { State.reset with sstep := 2 }) (fun t =>
      t.acc == 0x500#32 && t.sstep == 3) = true := by decide +kernel
theorem test_sample_order :
    exec (.tscSample .cp2 0#32) { State.reset with sstep := 2 } = .refused .scanOrder := rfl

/-- The source's remap vector T7. -/
theorem test_finish :
    ok (exec .tscFinish { State.reset with sstep := 7, acc := 0x007EBE00#32 }) (fun t =>
      t.bmask == 0x2060#32 && t.sstep == 0) = true := by decide +kernel

/-- Every line alone, vector V-T1. -/
theorem test_remap_lines :
    [8, 9, 10, 11, 12, 13, 14, 15, 16, 17, 18, 19, 20, 21, 22].map (fun p => remap (1#32 <<< p))
      = [5, 4, 3, 2, 1, 0, 13, 14, 6, 7, 8, 9, 10, 11, 12].map (fun b => 1#32 <<< b) := by decide

/-- Vector V-T2 g, a whole scan. -/
theorem test_scan_mixed :
    ok (runOps (tscScan 0xFF7FFEFF 0x807FF7AA 0x007F3F00 0x0071FF01 0x000FFF00) State.reset)
      (fun t => t.bmask == 0x7FA4#32 && t.acc == 0x13600#32 && t.sstep == 0) = true := by
  decide +kernel

/-- Vector V-O3. -/
theorem test_wrap : ok (exec .tmrWrap State.reset) (fun t =>
    t.pend && t.faults == FaultSet.empty) = true := by decide +kernel
theorem test_wrap_overrun : ok (exec .tmrWrap { State.reset with pend := true, ie := false }) (fun t =>
    t.pend && t.faults == ⟨true, false⟩) = true := by decide +kernel

/-- Vector V-O1: the example of R96 and the wrap of the 64-bit accumulator. -/
theorem test_tick :
    ok (exec .oscTick { State.reset with pend := true, inc := 708#32 }) (fun t =>
      t.phase == 708#64 && t.duty == 10#10 && !t.pend) = true := by decide +kernel
theorem test_tick_wraps :
    ok (exec .oscTick { State.reset with pend := true, inc := 708#32, phase := 0xFFFFFFFFFFFFFF9C#64 })
      (fun t => t.phase == 608#64 && t.duty == 8#10) = true := by decide +kernel

theorem test_wrinc : ok (exec (.oscWrinc 0xFFFFFFFF#32) State.reset) (fun t =>
    t.inc == 0xFFFFFFFF#32) = true := by decide +kernel

/-- Vector V-S1: 440.0, and the largest finite binary32, which saturates. -/
theorem test_setf : ok (exec (.oscSetf 0x43DC0000#32) State.reset) (fun t =>
    t.inc == 708#32) = true := by decide +kernel
theorem test_setf_saturates : ok (exec (.oscSetf 0x7F7FFFFF#32) State.reset) (fun t =>
    t.inc == 0xFFFFFFFF#32) = true := by decide +kernel

/-- Vector V-F, beside the thresholds: 0.62 and 0.6209, then one step below saturation and at it. -/
theorem test_conversion :
    ([62 / 100, 6209 / 10000, 130813 / 1000, 2666659839, 2666659840] : List ℚ).map
      (freqToInc Config.reference) = [0#32, 1#32, 210#32, 0xFFFFFFFE#32, 0xFFFFFFFF#32] := by
  decide +kernel

/-- Vector V-S4. -/
theorem test_setc : ok (exec .oscSetc { State.reset with curFreq := 23857467 / 91000 }) (fun t =>
    t.inc == 422#32) = true := by decide +kernel

theorem test_irq_dis : ok (exec .irqDis State.reset) (fun t => !t.ie) = true := by decide +kernel
/-- Sections do not nest, vector V-S3. -/
theorem test_irq_en : ok (runOps [.irqDis, .irqDis, .irqEn] State.reset) (fun t => t.ie) = true := by
  decide +kernel

/-- Vectors B10 and B11: the last tick of the first window, and the first tick after it. -/
theorem test_deb_locked : ok (exec .debStep { State.reset with ticks := 49, bmask := 0x4000#32 })
    (fun t => t.oct == 2 && t.octT == 0 && t.octPrev == 0x4000#32) = true := by decide +kernel
theorem test_deb_accepted : ok (exec .debStep { State.reset with ticks := 50, bmask := 0x5FFF#32 })
    (fun t => t.oct == 3 && t.octT == 50 && t.octPrev == 0x4000#32) = true := by decide +kernel

/-- Vectors S14 and S11. -/
theorem test_syn_normal :
    ok (exec .synStep { State.reset with bmask := 0x4200#32, glide := 1 / 11 }) (fun t =>
      t.targetFreq == 220 && t.curFreq == 20 && t.gate && t.led == 4) = true := by decide +kernel
theorem test_syn_glide_adjust :
    ok (exec .synStep { State.reset with bmask := 0x7000#32, targetFreq := 130813 / 1000 }) (fun t =>
      t.glide == 1 / 121 && t.curFreq == 130813 / 121000 && !t.gate && t.led == 0) = true := by
  decide +kernel

theorem test_adv : ok (exec .ctlAdv { State.reset with ticks := 59 }) (fun t => t.ticks == 60) = true := by
  decide +kernel

theorem test_dly : exec (.dly 1000#32) State.reset = .next State.reset := rfl

theorem test_reset : ok (exec .reset { State.reset with oct := 4, faults := ⟨true, true⟩, inc := 5#32 })
    (fun t => t.oct == 2 && t.faults == FaultSet.empty && t.inc == 0#32 && t.ie && t.glide == 1) = true := by
  decide +kernel

/-- The placed word is the first one run. -/
theorem test_step_placed :
    step (State.reset.withFetchWord 40 0x4143DC0000) = exec (.oscSetf 0x43DC0000#32) State.reset := rfl

/-! ## Witnesses: a state that meets a statement's hypotheses

Where a hypothesis is that an operation or a run answers a next state, the state it answers is found by
evaluation. -/

/-- The reference parameters on a floating-point host. -/
def floatParams : Params := { referenceParams with num := .float 0 }

theorem floatParams_check : floatParams.check = none := by decide +kernel

/-- The reset state of a floating-point host. -/
def floatReset : State := State.resetWith ⟨floatParams, floatParams_check⟩ 0 []

/-- The highest key of a mask, found by evaluation. -/
theorem highestKey_of_hsb {m : Word} {k : Nat} (h : hsb m = some k) : HighestKey m k :=
  (hsb_eq_some_iff m k).1 h

/-- A mask without both octave controls. -/
theorem not_glideAdjust_of_both {s : State} (h : both s.bmask = false) : ¬GlideAdjust s := by
  rintro ⟨h1, h2⟩
  simp [both, h1, h2] at h

theorem witness_DecodeOfEncodeIsTheOperation :
    ∃ i : Instr, i.wellFormed = true ∧ i = .oscSetf 0x7F7FFFFF#32 := ⟨_, by decide, rfl⟩

theorem witness_EncodeOfDecodeIsTheWord :
    ∃ (w : TraceWord) (i : Instr), decode w = .ok i ∧ w = 0x25FFFFFFFF#40 :=
  ⟨_, .tscSample .cp5 0xFFFFFFFF#32, by decide, rfl⟩

theorem witness_StoredBytesDecode : ∃ i : Instr, i.wellFormed = true := ⟨.ctlAdv, by decide⟩

/-- One pattern under each clause, at the ends of the exponent's range. -/
theorem witness_Binary32OperandValue :
    binary32 0x7F800000#32 = none ∧ binary32 0x80000001#32 = none ∧ binary32 0x80800000#32 = none ∧
      binary32 0x80000000#32 = some 0 ∧ binary32 0x007FFFFF#32 ≠ none ∧ binary32 0x00800000#32 ≠ none ∧
      binary32 0x7F7FFFFF#32 ≠ none := by decide +kernel

theorem witness_StepRunsTheDecodedOperation :
    (∃ (s : State) (w : TraceWord) (rest : List TraceWord) (i : Instr),
      s.trace = w :: rest ∧ decode w = .ok i) ∧
    (∃ (s : State) (w : TraceWord) (rest : List TraceWord),
      s.trace = w :: rest ∧ decode w = .error .invalidWord) ∧
    (∃ (s : State) (w : TraceWord) (rest : List TraceWord),
      s.trace = w :: rest ∧ decode w = .error .badFrequency) ∧
    (∃ s : State, s.trace = []) :=
  ⟨⟨State.reset.withTrace [0x5200000000#40], _, _, .ctlAdv, rfl, by decide⟩,
   ⟨State.reset.withTrace [0x26007FFF00#40], _, _, rfl, by decide⟩,
   ⟨State.reset.withTrace [0x41BF800000#40], _, _, rfl, by decide⟩, ⟨State.reset, rfl⟩⟩

theorem witness_PlacedWordIsRun : ∃ i : Instr, i.wellFormed = true := ⟨.reset, by decide⟩

theorem witness_SteppingATraceRunsItsOperations :
    ∃ ops : List Instr, ops.length = 3 ∧ ∀ i ∈ ops, i.wellFormed = true :=
  ⟨[.oscSetf 0x43DC0000#32, .tmrWrap, .oscTick], rfl, by decide⟩

/-- Parameters beside the bounds: entry 1024 is one too many, entry 1023 is not. -/
def overTable : Params := { referenceParams with sine := ramp.set 511 1024 }
/-- The largest sample a table may hold. -/
def fullTable : Params := { referenceParams with sine := ramp.set 511 1023 }
/-- A sense line in no group. -/
def missingLine : Params := { referenceParams with g1 := 0x00000300#32 }
/-- One LED too few. -/
def fourLeds : Params := { referenceParams with nLed := 4 }

theorem witness_ConfigurationCheck_badRate : ∃ p : Params, p.fs = 0 :=
  ⟨{ referenceParams with fs := 0 }, rfl⟩

theorem witness_ConfigurationCheck_badTable :
    overTable.fs ≠ 0 ∧ ∃ v ∈ overTable.sine, 1023 < v := by decide +kernel

/-- The statement's three conditions, on parameters. -/
def BadTable (p : Params) : Prop :=
  p.sine.length ≠ 512 ∨ (∃ v ∈ p.sine, 1023 < v) ∨ p.note.length ≠ 61 ∨ (∃ q ∈ p.note, q < 0) ∨
    p.note[24]? ≠ some (130813 / 1000)
def BadGroups (p : Params) : Prop :=
  (∃ j k, j ≠ k ∧ p.group j &&& p.group k ≠ 0#32) ∨
    p.g1 ||| p.g2 ||| p.g3 ||| p.g4 ||| p.g5 ≠ 0x007FFF00#32

theorem witness_ConfigurationCheck_badGroups :
    missingLine.fs ≠ 0 ∧ ¬BadTable missingLine ∧ BadGroups missingLine :=
  ⟨by decide, by unfold BadTable; decide +kernel, .inr (by decide)⟩

theorem witness_ConfigurationCheck_badLedCount :
    fourLeds.fs ≠ 0 ∧ ¬BadTable fourLeds ∧ ¬BadGroups fourLeds ∧ fourLeds.nLed < 5 := by
  refine ⟨by decide, by unfold BadTable; decide +kernel, ?_, by decide⟩
  rintro (⟨j, k, hjk, hn⟩ | h)
  · cases j <;> cases k <;> first | exact hjk rfl | exact hn (by decide)
  · exact h (by decide)

theorem witness_ConfigurationCheck_accepted :
    fullTable.fs ≠ 0 ∧ ¬BadTable fullTable ∧ ¬BadGroups fullTable ∧ 5 ≤ fullTable.nLed := by
  refine ⟨by decide, by unfold BadTable; decide +kernel, ?_, by decide⟩
  rintro (⟨j, k, hjk, hn⟩ | h)
  · cases j <;> cases k <;> first | exact hjk rfl | exact hn (by decide)
  · exact h (by decide)

theorem witness_ChargeStartsAScan :
    (∃ s : State, s.sstep = 0) ∧ (∃ s : State, s.sstep ≠ 0) :=
  ⟨⟨State.reset, rfl⟩, ⟨{ State.reset with sstep := 7 }, by decide⟩⟩

theorem witness_ReleaseFloatsTheLines :
    (∃ s : State, s.sstep = 1) ∧ (∃ s : State, s.sstep ≠ 1) :=
  ⟨⟨{ State.reset with sstep := 1 }, rfl⟩, ⟨{ State.reset with sstep := 2 }, by decide⟩⟩

theorem witness_SampleGathersItsGroup :
    (∃ (k : Checkpoint) (s : State), s.sstep.val = k.number + 1 ∧ k = .cp5) ∧
    (∃ (k : Checkpoint) (s : State), s.sstep.val ≠ k.number + 1 ∧ k = .cp5) :=
  ⟨⟨.cp5, { State.reset with sstep := 6 }, rfl, rfl⟩, ⟨.cp5, { State.reset with sstep := 7 }, by decide, rfl⟩⟩

theorem witness_FinishInvertsOnceAndRemaps :
    (∃ s : State, s.sstep = 7) ∧ (∃ s : State, s.sstep ≠ 7) :=
  ⟨⟨{ State.reset with sstep := 7 }, rfl⟩, ⟨{ State.reset with sstep := 6 }, by decide⟩⟩

/-- Bit numbers at the ends of each range of the remap network. -/
theorem witness_RemapBitByBit : (0 < 6 ∧ 5 < 6) ∧ (0 < 7 ∧ 6 < 7) ∧ 15 ≤ 15 := by decide

/-- A scan with a sample tick and a wait inside it. -/
theorem witness_WholeScanClosedForm :
    ∃ (w : Checkpoint → Word) (ops : List Instr) (s t : State),
      s.sstep = 0 ∧ ops.filter isScanOp = scanOps w ∧
      (∀ i ∈ ops, isScanOp i = true ∨ mayInterleave i = true) ∧ runOps ops s = .next t ∧
      ops.length = 11 :=
  ⟨fun _ => 0x007FDF00#32,
    [.tscCharge, .dly 10#32, .tscRelease, .tscSample .cp1 0x007FDF00#32, .tmrWrap, .oscTick,
     .tscSample .cp2 0x007FDF00#32, .tscSample .cp3 0x007FDF00#32, .tscSample .cp4 0x007FDF00#32,
     .tscSample .cp5 0x007FDF00#32, .tscFinish],
    State.reset, _, rfl, by decide, by decide, rfl, rfl⟩

theorem witness_SequencerNeverSkips :
    (∃ (i : Instr) (s t : State), exec i s = .next t ∧ i ≠ .reset ∧ isScanOp i = true) ∧
    (∃ (i : Instr) (s t : State), exec i s = .next t ∧ i ≠ .reset ∧ isScanOp i = false) ∧
    (∃ (i : Instr) (s t : State), exec i s = .next t ∧ i ≠ .reset ∧ t.bmask ≠ s.bmask) :=
  ⟨⟨.tscCharge, State.reset, _, rfl, by decide, rfl⟩, ⟨.ctlAdv, State.reset, _, rfl, by decide, rfl⟩,
   ⟨.tscFinish, { State.reset with sstep := 7 }, _, rfl, by decide, by decide +kernel⟩⟩

theorem witness_WrapSetsPendingOrMarksOverrun :
    (∃ s : State, s.pend = false) ∧ (∃ s : State, s.pend = true) :=
  ⟨⟨State.reset, rfl⟩, ⟨{ State.reset with pend := true }, rfl⟩⟩

theorem witness_TickAdvancesThenLooksUp :
    (∃ s : State, s.pend = true ∧ s.ie = true) ∧ (∃ s : State, s.pend = false) ∧
    (∃ s : State, s.pend = true ∧ s.ie = false) :=
  ⟨⟨{ State.reset with pend := true }, rfl, rfl⟩, ⟨State.reset, rfl⟩,
   ⟨{ State.reset with pend := true, ie := false }, rfl, rfl⟩⟩

theorem witness_PhaseProgression :
    (∃ (ops : List Instr) (s t : State), (∀ i ∈ ops, i ≠ .reset ∧ writesInc i = false) ∧
      runOps ops s = .next t ∧ 0 < ops.count .oscTick) ∧
    (∃ s : State, s.pend = false ∧ s.ie = true) :=
  ⟨⟨[.tmrWrap, .dly 5#32, .oscTick], State.reset, _, by decide, rfl, by decide⟩,
   ⟨State.reset, rfl, rfl⟩⟩

theorem witness_SetFrequencyRoundTrip :
    ∃ (f : Word) (q : ℚ) (s : State), binary32 f = some q ∧ s.pend = false ∧ s.ie = true ∧ q = 440 :=
  ⟨0x43DC0000#32, 440, State.reset, by decide +kernel, rfl, rfl, rfl⟩

theorem witness_OnlyTheLowSixteenPhaseBitsMatter :
    ∃ (ops : List Instr) (s t : State) (q : Phase), q.toNat % 65536 = s.phase.toNat % 65536 ∧
      q ≠ s.phase ∧ runOps ops s = .next t ∧ ops.length = 2 :=
  ⟨[.tmrWrap, .oscTick], State.reset, _, 65536#64, by decide, by decide, rfl, rfl⟩

theorem witness_WaveformPeriod :
    ∃ (n : Nat) (s t : State), s.pend = false ∧ s.ie = true ∧ runOps (oscRun n) s = .next t ∧ n = 2 :=
  ⟨2, { State.reset with inc := 32768#32 }, _, rfl, rfl, rfl, rfl⟩

theorem witness_UnservedBoundaryIsMarked :
    ∃ (ops : List Instr) (s t : State), .oscTick ∉ ops ∧ .reset ∉ ops ∧
      runOps (.tmrWrap :: (ops ++ [.tmrWrap])) s = .next t :=
  ⟨[.irqDis, .irqEn], State.reset, _, by decide, by decide, rfl⟩

theorem witness_InterruptBitsHaveOneWriter :
    (∃ (i : Instr) (s t : State), exec i s = .next t ∧ i ≠ .reset ∧ s.pend = false ∧ t.pend = true) ∧
    (∃ (i : Instr) (s t : State), exec i s = .next t ∧ i ≠ .reset ∧ s.pend = true ∧ t.pend = false) ∧
    (∃ (i : Instr) (s t : State), exec i s = .next t ∧ i ≠ .reset ∧ s.ie = true ∧ t.ie = false) ∧
    (∃ (i : Instr) (s t : State), exec i s = .next t ∧ i ≠ .reset ∧ s.ie = false ∧ t.ie = true) :=
  ⟨⟨.tmrWrap, State.reset, _, rfl, by decide, rfl, rfl⟩,
   ⟨.oscTick, { State.reset with pend := true }, _, rfl, by decide, rfl, rfl⟩,
   ⟨.irqDis, State.reset, _, rfl, by decide, rfl, rfl⟩,
   ⟨.irqEn, { State.reset with ie := false }, _, rfl, by decide, rfl, rfl⟩⟩

theorem witness_SetFrequencyStoresItsIncrement :
    (∃ (f : Word) (q : ℚ), binary32 f = some q) ∧ (∃ f : Word, binary32 f = none) :=
  ⟨⟨0x3F1F0000#32, 159 / 256, by decide +kernel⟩, ⟨0xBF800000#32, by decide +kernel⟩⟩

/-- On both sides of the two thresholds: `FS`/65536 and 65536 × `FS`. -/
theorem witness_ConversionValue :
    Config.reference.params.num = .exact ∧ (0 : ℚ) ≤ 0 ∧
    (20344 / 32768 : ℚ) < (Config.reference.params.fs : ℚ) / 65536 ∧
    ¬(20345 / 32768 : ℚ) < (Config.reference.params.fs : ℚ) / 65536 ∧
    (2666659839 : ℚ) < 65536 * (Config.reference.params.fs : ℚ) ∧
    65536 * (Config.reference.params.fs : ℚ) ≤ 2666659840 := by decide +kernel

theorem witness_ConversionIsMonotone :
    ∃ (c : Config) (f1 f2 : ℚ), c.params.num = .exact ∧ 0 ≤ f1 ∧ f1 < f2 :=
  ⟨Config.reference, 0, 440, rfl, by decide +kernel, by decide +kernel⟩

/-- On both sides of the saturation threshold of a floating-point host. -/
theorem witness_FloatingConversionBounds :
    floatReset.cfg.params.num = .float 0 ∧ (0 : ℚ) ≤ 0 ∧
    (2666659839 * 65536 / (floatReset.cfg.params.fs : ℚ) : ℚ) < 2 ^ 32 ∧
    (2 ^ 32 : ℚ) ≤ 2666659840 * 65536 / (floatReset.cfg.params.fs : ℚ) := by decide +kernel

theorem witness_HandOffUsesTheWholeStoredWord :
    ∃ (i : Instr) (ops : List Instr) (s s1 t u : State), exec i s = .next s1 ∧
      (∀ j ∈ ops, j ≠ .reset ∧ writesInc j = false) ∧ runOps ops s1 = .next t ∧
      exec .oscTick t = .next u ∧ i = .oscWrinc 1416#32 :=
  ⟨.oscWrinc 1416#32, [.tmrWrap, .oscTick, .tmrWrap], State.reset, _, _, _, rfl, by decide, rfl, rfl, rfl⟩

theorem witness_NoTickInsideTheCriticalSection :
    ∃ (ops : List Instr) (s t : State), .irqEn ∉ ops ∧ .reset ∉ ops ∧
      runOps (.irqDis :: ops) s = .next t ∧ ops.length = 2 :=
  ⟨[.tmrWrap, .oscWrinc 128#32], State.reset, _, by decide, by decide, rfl, rfl⟩

theorem witness_PhaseBelongsToTheHandler :
    (∃ i : Instr, i ≠ .oscTick ∧ i ≠ .reset) ∧ (∃ i : Instr, i ≠ .oscTick ∧ i = .reset) :=
  ⟨⟨.tmrWrap, by decide⟩, ⟨.reset, by decide⟩⟩

theorem witness_IncIsTheOnlySharedDatum :
    (∃ (i : Instr) (s t : State), exec i s = .next t ∧ i ≠ .reset ∧ writesInc i = false) ∧
    (∃ i : Instr, i ≠ .oscTick ∧ i ≠ .reset ∧ writesInc i = false) ∧
    (∃ i : Instr, i = .reset ∨ writesInc i = true) :=
  ⟨⟨.tmrWrap, State.reset, _, rfl, by decide, rfl⟩, ⟨.tmrWrap, by decide⟩, ⟨.oscSetc, .inr rfl⟩⟩

theorem witness_TimerAndHandlerLeaveTheForegroundAlone :
    Instr.tmrWrap.agent ≠ .fg ∧ Instr.oscTick.agent ≠ .fg := by decide

theorem witness_HandlerCommutesWithTheForeground :
    ∃ (a i : Instr) (s t : State), a.agent ≠ .fg ∧ i.agent = .fg ∧ sharesWithHandler i = false ∧
      runOps [a, i] s = .next t ∧ runOps [i, a] s = .next t :=
  ⟨.tmrWrap, .ctlAdv, State.reset, _, by decide, rfl, rfl, rfl, rfl⟩

theorem witness_MarksAreSticky :
    ∃ (i : Instr) (s t : State), exec i s = .next t ∧ i ≠ .reset ∧ s.faults.overrun = true ∧
      s.faults.noteIndex = true :=
  ⟨.ctlAdv, { State.reset with faults := ⟨true, true⟩ }, _, rfl, by decide, rfl, rfl⟩

/-- A state with a mask, the control ticks so far, and the octave controls of the last one. -/
def debState (m : Word) (ticks : Nat) : State := { State.reset with bmask := m, ticks := ticks }

/-- One state under each clause, the window at 49 and at 50 control ticks. -/
theorem witness_DebounceStep :
    GlideAdjust (debState 0x6000#32 50) ∧
    (debState 0x4000#32 49).ticks - (debState 0x4000#32 49).octT
      < (debState 0x4000#32 49).cfg.params.debTicks ∧
    (¬RisingEdge (debState 0#32 50) bitOctUp ∧ ¬RisingEdge (debState 0#32 50) bitOctDn) ∧
    (¬GlideAdjust (debState 0x4000#32 50) ∧
      (debState 0x4000#32 50).cfg.params.debTicks
        ≤ (debState 0x4000#32 50).ticks - (debState 0x4000#32 50).octT ∧
      RisingEdge (debState 0x4000#32 50) bitOctUp) ∧
    (¬GlideAdjust (debState 0x2000#32 50) ∧
      (debState 0x2000#32 50).cfg.params.debTicks
        ≤ (debState 0x2000#32 50).ticks - (debState 0x2000#32 50).octT ∧
      RisingEdge (debState 0x2000#32 50) bitOctDn) := by
  unfold GlideAdjust RisingEdge
  decide +kernel

theorem witness_OctaveStaysClamped :
    (∃ (i : Instr) (s t : State), exec i s = .next t ∧ i ≠ .reset ∧ t.oct ≠ s.oct) ∧
    (∃ (i : Instr) (s t : State), exec i s = .next t ∧ i ≠ .reset ∧ s.oct ≤ 4 ∧ i = .debStep ∧ s.oct = 4) ∧
    (∃ s t : State, exec .reset s = .next t) ∧
    (∃ (ops : List Instr) (s t : State), s.oct ≤ 4 ∧ runOps ops s = .next t ∧ ops = [.debStep]) ∧
    (∃ s t : State, s.oct = 4 ∧ RisingEdge s bitOctUp ∧ exec .debStep s = .next t) ∧
    (∃ s t : State, s.oct = 0 ∧ RisingEdge s bitOctDn ∧ exec .debStep s = .next t) :=
  ⟨⟨.debStep, debState 0x4000#32 50, _, rfl, by decide, by decide +kernel⟩,
   ⟨.debStep, { debState 0x4000#32 50 with oct := 4 }, _, rfl, by decide, by decide, rfl, rfl⟩,
   ⟨State.reset, _, rfl⟩,
   ⟨_, debState 0x4000#32 50, _, by decide, rfl, rfl⟩,
   ⟨{ debState 0x4000#32 50 with oct := 4 }, _, rfl, ⟨by decide, by decide⟩, rfl⟩,
   ⟨{ debState 0x2000#32 50 with oct := 0 }, _, rfl, ⟨by decide, by decide⟩, rfl⟩⟩

/-- The state after the first accepted edge, a release, and n control ticks more. -/
def secondPress (n : Nat) : State :=
  { debState 0x4000#32 (50 + n) with oct := 3, octT := 50, octPrev := 0#32 }

/-- A second press 49 and 50 control ticks after the accepted one. -/
theorem witness_LockOutWindow (n : Nat) (hn : n = 49 ∨ n = 50) :
    ∃ s t u v : State, s.oct ≤ 2 ∧
      ¬GlideAdjust s ∧ RisingEdge s bitOctUp ∧ s.cfg.params.debTicks ≤ s.ticks - s.octT ∧
      exec .debStep s = .next t ∧
      u.cfg = s.cfg ∧ u.oct = t.oct ∧ u.octT = t.octT ∧ s.ticks < u.ticks ∧
      ¬GlideAdjust u ∧ RisingEdge u bitOctUp ∧ exec .debStep u = .next v ∧ u.ticks - s.ticks = n := by
  rcases hn with rfl | rfl
  · exact ⟨debState 0x4000#32 50, _, secondPress 49, _, by decide, not_glideAdjust_of_both (by decide),
      ⟨by decide, by decide⟩, by decide +kernel, rfl, rfl, by decide +kernel, by decide +kernel, by decide,
      not_glideAdjust_of_both (by decide), ⟨by decide, by decide⟩, rfl, rfl⟩
  · exact ⟨debState 0x4000#32 50, _, secondPress 50, _, by decide, not_glideAdjust_of_both (by decide),
      ⟨by decide, by decide⟩, by decide +kernel, rfl, rfl, by decide +kernel, by decide +kernel, by decide,
      not_glideAdjust_of_both (by decide), ⟨by decide, by decide⟩, rfl, rfl⟩

theorem witness_FirstWindowAfterReset :
    ∃ (c : Config) (d : Nat) (tr : List TraceWord) (ops : List Instr) (t : State), .reset ∉ ops ∧
      ops.count .ctlAdv < c.params.debTicks ∧ runOps ops (State.resetWith c d tr) = .next t ∧
      ops.length = 50 :=
  ⟨Config.reference, 0, [], List.replicate 49 .ctlAdv ++ [.debStep], _, by decide, by decide +kernel, rfl,
   by decide⟩

/-- Both modes of the numerics, with a key and without. -/
theorem witness_GlideAdjustTick :
    (∃ s : State, GlideAdjust s ∧ ¬KeyHeld s ∧ s.cfg.params.num = .exact) ∧
    (∃ s : State, GlideAdjust s ∧ HighestKey s.bmask 12 ∧ s.cfg.params.num = .exact) ∧
    (∃ s : State, GlideAdjust s ∧ HighestKey s.bmask 0 ∧ s.cfg.params.num = .float 0) :=
  ⟨⟨debState 0x6000#32 0, ⟨by decide, by decide⟩, by unfold KeyHeld; decide, rfl⟩,
   ⟨debState 0x7FFF#32 0, ⟨by decide, by decide⟩, highestKey_of_hsb (by decide), rfl⟩,
   ⟨{ floatReset with bmask := 0x6001#32 }, ⟨by decide, by decide⟩, highestKey_of_hsb (by decide), rfl⟩⟩

/-- Without a key, at index 60, at index 61, and on a floating-point host. -/
theorem witness_NormalPlayTick :
    (∃ s : State, ¬GlideAdjust s ∧ ¬KeyHeld s ∧ s.cfg.params.num = .exact) ∧
    (∃ (s : State) (k : Nat), ¬GlideAdjust s ∧ HighestKey s.bmask k ∧ 12 * s.oct + k = 60) ∧
    (∃ (s : State) (k : Nat), ¬GlideAdjust s ∧ HighestKey s.bmask k ∧ 12 * s.oct + k = 61) ∧
    (∃ s : State, ¬GlideAdjust s ∧ s.cfg.params.num = .float 0) :=
  ⟨⟨debState 0x2000#32 0, not_glideAdjust_of_both (by decide), by unfold KeyHeld; decide, rfl⟩,
   ⟨{ debState 0x1000#32 0 with oct := 4 }, 12, not_glideAdjust_of_both (by decide),
    highestKey_of_hsb (by decide), by decide⟩,
   ⟨{ debState 0x0002#32 0 with oct := 5 }, 1, not_glideAdjust_of_both (by decide),
    highestKey_of_hsb (by decide), by decide⟩,
   ⟨floatReset, not_glideAdjust_of_both (by decide), rfl⟩⟩

/-- Keys 0 and 3 together, in both modes. -/
theorem witness_HighestKeyWins :
    (∃ s t : State, s.oct ≤ 4 ∧ HighestKey s.bmask 3 ∧ exec .synStep s = .next t ∧ ¬GlideAdjust s) ∧
    (∃ s t : State, s.oct ≤ 4 ∧ HighestKey s.bmask 3 ∧ exec .synStep s = .next t ∧ GlideAdjust s ∧
      s.cfg.params.num = .exact) :=
  ⟨⟨debState 0x0009#32 0, _, by decide, highestKey_of_hsb (by decide), rfl,
    not_glideAdjust_of_both (by decide)⟩,
   ⟨debState 0x6009#32 0, _, by decide, highestKey_of_hsb (by decide), rfl, ⟨by decide, by decide⟩, rfl⟩⟩

theorem witness_TargetIsRetained :
    (∃ (i : Instr) (s t : State), exec i s = .next t ∧ i ≠ .reset ∧ t.targetFreq ≠ s.targetFreq) ∧
    (∃ s t : State, ¬KeyHeld s ∧ exec .synStep s = .next t) ∧
    (∃ (s t : State) (k : Nat), ¬GlideAdjust s ∧ HighestKey s.bmask k ∧
      exec .synStep { s with oct := 4 } = .next t) :=
  ⟨⟨.synStep, debState 1#32 0, _, rfl, by decide, by decide +kernel⟩,
   ⟨debState 0x4000#32 0, _, by unfold KeyHeld; decide, rfl⟩,
   ⟨debState 1#32 0, _, 0, not_glideAdjust_of_both (by decide), highestKey_of_hsb (by decide), rfl⟩⟩

theorem witness_GlideFactorRange :
    (∃ (s t : State) (k : Nat), s.cfg.params.num = .exact ∧ GlideAdjust s ∧ HighestKey s.bmask k ∧
      exec .synStep s = .next t ∧ k = 12) ∧
    (∃ (ops : List Instr) (s t : State), s.cfg.params.num = .exact ∧ 0 < s.glide ∧ s.glide ≤ 1 ∧
      runOps ops s = .next t ∧ ops = [.synStep]) :=
  ⟨⟨debState 0x7000#32 0, _, 12, rfl, ⟨by decide, by decide⟩, highestKey_of_hsb (by decide), rfl, rfl⟩,
   ⟨_, debState 0x7000#32 0, _, rfl, by decide +kernel, by decide +kernel, rfl, rfl⟩⟩

/-- Vector V-G: key 0 held in octave 3 under a glide factor of 1/91. -/
def glidedNote : State :=
  { debState 1#32 0 with
    oct := 3, glide := 1 / 91, targetFreq := 130813 / 1000, curFreq := 130813 / 1000 }

/-- Three ticks of vector V-G. -/
theorem test_syn_glided : ok (runOps (List.replicate 3 .synStep) glidedNote)
    (fun t => t.curFreq == 50895544723 / 376785500 && t.targetFreq == 130813 / 500) = true := by
  decide +kernel

/-- Under each form of a fixed target: no key, vector V-G with key 0 held, Glide-Adjust with key 9. -/
theorem witness_SmoothingConverges :
    (∃ s t : State, s.cfg.params.num = .exact ∧ exec .synStep s = .next t ∧ t.glide = 1) ∧
    (∃ s : State, s.cfg.params.num = .exact ∧ FixedTarget s 440 ∧ ¬KeyHeld s ∧ 0 < s.glide ∧
      s.glide < 1 ∧ s.curFreq ≠ 440) ∧
    (∃ s t : State, s.cfg.params.num = .exact ∧ FixedTarget s (130813 / 500) ∧ KeyHeld s ∧
      ¬GlideAdjust s ∧ 0 < s.glide ∧ s.glide < 1 ∧ s.curFreq ≠ 130813 / 500 ∧
      runOps (List.replicate 3 .synStep) s = .next t) ∧
    (∃ s : State, s.cfg.params.num = .exact ∧ FixedTarget s 440 ∧ KeyHeld s ∧ GlideAdjust s ∧ 0 < s.glide) :=
  ⟨⟨State.reset, _, rfl, rfl, by decide +kernel⟩,
   ⟨{ State.reset with glide := 1 / 2, targetFreq := 440 }, rfl, .inl ⟨by unfold KeyHeld; decide, rfl⟩,
    by unfold KeyHeld; decide, by decide +kernel, by decide +kernel, by decide +kernel⟩,
   ⟨glidedNote, _, rfl,
    .inr (.inl ⟨not_glideAdjust_of_both (by decide), 0, highestKey_of_hsb (by decide), by decide +kernel⟩),
    by unfold KeyHeld; decide, not_glideAdjust_of_both (by decide), by decide +kernel, by decide +kernel,
    by decide +kernel, rfl⟩,
   ⟨{ debState 0x6200#32 0 with glide := 1 / 91, targetFreq := 440 }, rfl,
    .inr (.inr ⟨⟨by decide, by decide⟩, rfl, 9, highestKey_of_hsb (by decide), by decide +kernel⟩),
    by unfold KeyHeld; decide, ⟨by decide, by decide⟩, by decide +kernel⟩⟩

/-- From silence to the host's largest number in one tick, and a step that stands at its target. -/
theorem witness_FloatingSmoothingBounds :
    (∃ s t : State, s.cfg.params.num = .float 0 ∧ exec .synStep s = .next t ∧ t.glide = 1 ∧
      s.curFreq ≠ t.targetFreq ∧
      (Config.floatHost 0).NoOverflow s.curFreq t.targetFreq 1) ∧
    (∃ s t : State, s.cfg.params.num = .float 0 ∧ exec .synStep s = .next t ∧ t.glide = 1 / 2 ∧
      (Config.floatHost 0).NoOverflow s.curFreq t.targetFreq (1 / 2)) := by
  have hl := (Config.floatHost 0).largest_pos
  have ha := abs_of_pos hl
  have hf := (Config.floatHost 0).fl_largest
  have hz := (Config.floatHost 0).fl_zero
  refine ⟨⟨{ floatReset with targetFreq := (Config.floatHost 0).largest }, _, rfl, rfl, rfl, hl.ne, ?_⟩,
    ⟨{ floatReset with
        targetFreq := (Config.floatHost 0).largest
        curFreq := (Config.floatHost 0).largest
        glide := 1 / 2 }, _, rfl, rfl, rfl, ?_⟩⟩
  · show (Config.floatHost 0).NoOverflow 0 (Config.floatHost 0).largest 1
    simp [FloatHost.NoOverflow, hf, ha]
  · show (Config.floatHost 0).NoOverflow (Config.floatHost 0).largest (Config.floatHost 0).largest (1 / 2)
    simp [FloatHost.NoOverflow, hz, ha, hl.le]

/-- Key 12 of octave 3 and key 0 of octave 4. -/
theorem witness_NoteIndexInRange :
    ∃ s t u v : State, s.oct ≤ 4 ∧ u.cfg = s.cfg ∧ u.oct = s.oct + 1 ∧ u.oct ≤ 4 ∧ ¬GlideAdjust s ∧
      ¬GlideAdjust u ∧ HighestKey s.bmask 12 ∧ HighestKey u.bmask 0 ∧
      exec .synStep s = .next t ∧ exec .synStep u = .next v :=
  ⟨{ debState 0x1001#32 0 with oct := 3 }, _, { debState 0x0001#32 0 with oct := 4 }, _, by decide, rfl, rfl,
   by decide, not_glideAdjust_of_both (by decide), not_glideAdjust_of_both (by decide),
   highestKey_of_hsb (by decide), highestKey_of_hsb (by decide), rfl, rfl⟩

theorem witness_GateFollowsTheKeys :
    (∃ s t : State, exec .synStep s = .next t ∧ ¬GlideAdjust s ∧ KeyHeld s) ∧
    (∃ (i : Instr) (s t : State), exec i s = .next t ∧ i ≠ .reset ∧ t.gate ≠ s.gate) :=
  ⟨⟨debState 1#32 0, _, rfl, not_glideAdjust_of_both (by decide), by unfold KeyHeld; decide⟩,
   ⟨.synStep, debState 1#32 0, _, rfl, by decide, by decide +kernel⟩⟩

theorem witness_LedsShowTheOctaveOrTheMode :
    (∃ s t : State, s.oct ≤ 4 ∧ exec .synStep s = .next t ∧ ¬GlideAdjust s) ∧
    (∃ s t : State, s.oct ≤ 4 ∧ exec .synStep s = .next t ∧ GlideAdjust s ∧ KeyHeld s) ∧
    (∃ s t : State, s.oct ≤ 4 ∧ exec .synStep s = .next t ∧ GlideAdjust s ∧ ¬KeyHeld s) :=
  ⟨⟨{ State.reset with oct := 4 }, _, by decide, rfl, not_glideAdjust_of_both (by decide)⟩,
   ⟨debState 0x6200#32 0, _, by decide, rfl, ⟨by decide, by decide⟩, by unfold KeyHeld; decide⟩,
   ⟨debState 0x6000#32 0, _, by decide, rfl, ⟨by decide, by decide⟩, by unfold KeyHeld; decide⟩⟩

/-- The reset state with one operation to run. -/
def oneCharge : State := State.resetWith Config.reference 0 [0x1000000000#40]

theorem oneCharge_inv : Inv oneCharge where
  bmask_valid := by decide
  acc_sense := by decide
  octPrev_controls := by decide
  oct_le := by decide
  octT_le := by decide
  glide_form := fun _ => ⟨0, by decide, by decide +kernel⟩
  target_entry := .inl rfl
  curFreq_nonneg := fun _ => by decide +kernel
  driven_iff := by decide
  led_width := by decide +kernel

theorem witness_EveryStepKeepsTheInvariants :
    ∃ s t : State, Inv s ∧ step s = .next t ∧ s.trace = [0x1000000000#40] :=
  ⟨oneCharge, _, oneCharge_inv, rfl, rfl⟩

theorem witness_DutyTracksThePhase :
    (∃ s t : State, exec .oscTick s = .next t) ∧
    (∃ (i : Instr) (s t : State), exec i s = .next t ∧ i ≠ .reset ∧ DutyTracks s) :=
  ⟨⟨{ State.reset with pend := true }, _, rfl⟩,
   ⟨.ctlAdv, { State.reset with duty := 0#10 }, _, rfl, by decide, by unfold DutyTracks; decide +kernel⟩⟩

theorem witness_ReachableStatesMeetTheInvariants :
    (∃ (c : Config) (d : Nat) (tr : List TraceWord) (ops : List Instr) (t : State),
      runOps ops (State.resetWith c d tr) = .next t ∧ ops = [.tscCharge, .ctlAdv]) ∧
    (∃ (c : Config) (d : Nat) (tr : List TraceWord) (before after : List Instr) (t : State),
      .reset ∉ after ∧ runOps (before ++ .oscTick :: after) (State.resetWith c d tr) = .next t ∧
      before = [.tmrWrap]) :=
  ⟨⟨Config.reference, 0, [], _, _, rfl, rfl⟩,
   ⟨Config.reference, 0, [], [.tmrWrap], [.ctlAdv], _, by decide, rfl, rfl⟩⟩

end Sys2Proof.Tests
end

section
/-! PROOFS. The scan operations `TSC.RELEASE`, `TSC.SAMPLE` and `TSC.FINISH` (41_touch_scanner.md R82 to
R84): each is one `scanStep`, so each takes effect at one value of `SSTEP` and is refused at every other. -/

namespace Sys2Proof.Machine

/-! ## The scan sequencer -/

/-- In order, a scan operation acts and moves the sequencer, and that is the whole step. -/
theorem scanStep_of_sstep_eq {need after : Fin 8} {act : State → State} {s : State}
    (h : s.sstep = need) : scanStep need after act s = .next { act s with sstep := after } :=
  scanStep_next_iff.2 ⟨h, rfl⟩

/-- Out of order, a scan operation is refused whatever it would do. -/
theorem scanStep_of_sstep_ne {need after : Fin 8} {act : State → State} {s : State}
    (h : s.sstep ≠ need) : scanStep need after act s = .refused .scanOrder :=
  scanStep_refused_iff.2 ⟨h, rfl⟩

/-- Checkpoint k is due exactly when `SSTEP`, read as a number, is k + 1. -/
theorem sstep_eq_dueStep_iff {k : Checkpoint} {s : State} :
    s.sstep = dueStep k ↔ s.sstep.val = k.number + 1 := by
  rw [Fin.ext_iff, dueStep_val]

/-! ## The operations as sequencer steps -/

/-- R82 as one sequencer step. -/
theorem exec_tscRelease_eq_scanStep (s : State) :
    exec .tscRelease s = scanStep 1 2 (fun s => { s with sdrv := .hiz }) s := rfl

/-- R83 as one sequencer step. -/
theorem exec_tscSample_eq_scanStep (k : Checkpoint) (w : Word) (s : State) :
    exec (.tscSample k w) s = scanStep (dueStep k) (takenStep k)
      (fun s => { s with acc := s.acc ||| (w &&& s.cfg.params.group k) }) s := rfl

/-- R84 as one sequencer step. -/
theorem exec_tscFinish_eq_scanStep (s : State) :
    exec .tscFinish s =
      scanStep 7 0 (fun s => { s with bmask := remap (~~~s.acc &&& sense) }) s := rfl

/-! ## `TSC.SAMPLE` -/

/-- A due checkpoint writes `ACC` and `SSTEP`, and nothing else (R83). -/
theorem exec_tscSample_of_due {k : Checkpoint} {s : State} (w : Word)
    (h : s.sstep.val = k.number + 1) :
    exec (.tscSample k w) s = .next { s with
      acc := s.acc ||| (w &&& s.cfg.params.group k), sstep := takenStep k } := by
  rw [exec_tscSample_eq_scanStep, scanStep_of_sstep_eq (sstep_eq_dueStep_iff.2 h)]

/-- A checkpoint that is not due is refused, early or late. -/
theorem exec_tscSample_of_not_due {k : Checkpoint} {s : State} (w : Word)
    (h : s.sstep.val ≠ k.number + 1) : exec (.tscSample k w) s = .refused .scanOrder := by
  rw [exec_tscSample_eq_scanStep, scanStep_of_sstep_ne (mt sstep_eq_dueStep_iff.1 h)]

/-! ## The obligations -/

/-- Settles O15: the due checkpoint is one update of `ACC` and `SSTEP`, read bit by bit. -/
theorem sampleGathersItsGroup : Obligations.SampleGathersItsGroup := by
  intro k w s
  refine ⟨fun hdue => ?_, exec_tscSample_of_not_due w⟩
  refine ⟨_, exec_tscSample_of_due w hdue, takenStep_val k, fun p => ?gatedBits, rfl⟩
  case gatedBits => rw [BitVec.getLsbD_or, BitVec.getLsbD_and]

/-- Settles O14: `TSC.RELEASE` is the sequencer step from 1 to 2. -/
theorem releaseFloatsTheLines : Obligations.ReleaseFloatsTheLines := by
  intro s
  rw [exec_tscRelease_eq_scanStep]
  exact ⟨scanStep_of_sstep_eq, scanStep_of_sstep_ne⟩

/-- Settles O16: `TSC.FINISH` is the sequencer step from 7 to 0, and the mask it inverts inside is
`SENSE`. -/
theorem finishInvertsOnceAndRemaps : Obligations.FinishInvertsOnceAndRemaps := by
  intro s
  rw [exec_tscFinish_eq_scanStep]
  exact ⟨scanStep_of_sstep_eq, scanStep_of_sstep_ne⟩

end Sys2Proof.Machine
end

section
/-! PROOFS. The sample tick `OSC.TICK` (42_oscillator.md R96): when it runs it is one update of `PEND`,
`PHASE` and `DUTY`, and it is refused when no tick is pending or ticks are masked. -/

namespace Sys2Proof.Machine

/-- The phase after a sample tick: `INC` is added modulo 2^64. -/
def State.advancedPhase (s : State) : Phase := s.phase + s.inc.setWidth 64

/-- The advance as a number (R96). -/
theorem State.advancedPhase_toNat (s : State) :
    s.advancedPhase.toNat = (s.phase.toNat + s.inc.toNat) % 2 ^ 64 := by
  have hinc : (s.inc.setWidth 64).toNat = s.inc.toNat :=
    BitVec.toNat_setWidth_of_le (by decide)
  rw [State.advancedPhase, BitVec.toNat_add, hinc]

/-- The table entry at bits 15:7 of a phase reaches `DUTY` unchanged. -/
theorem State.sineAt_idx_entry (s : State) (p : Phase) :
    s.cfg.params.sine[p.toNat / prec % tableLen]? = some (s.sineAt (idx p)).toNat := by
  rw [← idx_toNat]
  exact s.sineAt_entry (idx p)

/-- A pending, unmasked tick: the whole step. The lookup uses the advanced phase. -/
theorem exec_oscTick_of_pending {s : State} (hpend : s.pend = true) (hie : s.ie = true) :
    exec .oscTick s = .next { s with
      pend := false, phase := s.advancedPhase, duty := s.sineAt (idx s.advancedPhase) } :=
  execOscTick_next_iff.2 ⟨hpend, hie, rfl⟩

/-- Without a pending tick, `OSC.TICK` is refused, whatever the mask. -/
theorem exec_oscTick_of_not_pending {s : State} (hpend : s.pend = false) :
    exec .oscTick s = .refused .noTickPending :=
  takeSampleTick_refused_iff.2 (.inl ⟨hpend, rfl⟩)

/-- A pending tick is refused while the mask is set. -/
theorem exec_oscTick_of_masked {s : State} (hpend : s.pend = true) (hie : s.ie = false) :
    exec .oscTick s = .refused .masked :=
  takeSampleTick_refused_iff.2 (.inr ⟨hpend, hie, rfl⟩)

/-- Settles O21: the three cases of `OSC.TICK`, the running one read as numbers. -/
theorem tickAdvancesThenLooksUp : Obligations.TickAdvancesThenLooksUp := by
  intro s
  refine ⟨fun hpend hie => ?runs, exec_oscTick_of_not_pending, exec_oscTick_of_masked⟩
  case runs =>
    exact ⟨_, exec_oscTick_of_pending hpend hie, rfl, s.advancedPhase_toNat,
      s.sineAt_idx_entry s.advancedPhase⟩

end Sys2Proof.Machine
end

section
/-! PROOFS. The conversion of a frequency under exact rationals (43_freq_update_sync.md R105, R112): on its
domain it is the exact conversion, whose monotonicity the model carries. -/

namespace Sys2Proof

/-- Under exact rationals, a frequency at or above 0 is converted exactly (R105). -/
theorem freqToInc_exact {c : Config} {f : ℚ} (hnum : c.params.num = .exact) (hf : 0 ≤ f) :
    freqToInc c f = exactConversion c.params.fs f := by
  have hinc : increment c f = min maxInc ⌊incQuotient c f⌋.toNat := by rw [increment, hnum]
  rw [freqToInc, if_neg hf.not_gt, hinc, incQuotient, exactConversion]

/-- Settles O33: both frequencies lie in the domain of the exact conversion, which is monotone. -/
theorem conversionIsMonotone : Obligations.ConversionIsMonotone := by
  intro c f1 f2 hnum hf1 hlt
  have hf2 : 0 ≤ f2 := hf1.trans hlt.le
  rw [freqToInc_exact hnum hf1, freqToInc_exact hnum hf2]
  exact exactConversion_mono c.params.fs f1 f2 hlt.le

end Sys2Proof
end

section
/-! PROOFS. The foreground's stores of `INC` without a case of their own, `OSC.WRINC` and `OSC.SETC`
(43_freq_update_sync.md R106, R108): each is one indivisible store, in every state. -/

namespace Sys2Proof.Machine

/-- The store of `INC` replaces the whole word and leaves every other element as it was. -/
theorem State.memWriteInc_eq (s : State) (v : Word) : s.memWriteInc v = { s with inc := v } := rfl

/-- R106 as one store: neither `PEND` nor `IE` is read. -/
theorem exec_oscWrinc_eq_memWriteInc (v : Word) (s : State) :
    exec (.oscWrinc v) s = .next (s.memWriteInc v) := rfl

/-- R108 as one store of the converted `CUR_FREQ`. -/
theorem exec_oscSetc_eq_memWriteInc (s : State) :
    exec .oscSetc s = .next (s.memWriteInc (freqToInc s.cfg s.curFreq)) := rfl

/-- Settles O28: `OSC.WRINC v` is one store of v. -/
theorem writeIncStoresTheWholeWord : Obligations.WriteIncStoresTheWholeWord := by
  intro v s
  rw [exec_oscWrinc_eq_memWriteInc, State.memWriteInc_eq]

/-- Settles O30: `OSC.SETC` is one store of the converted `CUR_FREQ`. -/
theorem setCurrentStoresItsIncrement : Obligations.SetCurrentStoresItsIncrement := by
  intro s
  rw [exec_oscSetc_eq_memWriteInc, State.memWriteInc_eq]

end Sys2Proof.Machine
end

section
/-! PROOFS. The octave (44_octave_debounce.md R115, R116; 10_state.md R30): `DEB.STEP` and `RESET` are its
only writers, an accepted edge moves it by at most one, and it stays at most 4 along every run. -/

namespace Sys2Proof.Machine

open Host (Outcome)

/-! ## An accepted edge -/

/-- An accepted edge moves an octave in range by at most one. -/
theorem acceptedOctave_near {s : State} {o : Nat} (h : acceptedOctave s = some o)
    (ho : s.oct ≤ octMax) : o ≤ s.oct + 1 ∧ s.oct ≤ o + 1 := by
  obtain ⟨-, -, ⟨-, rfl⟩ | ⟨-, -, rfl⟩⟩ := acceptedOctave_eq_some_iff.1 h <;> omega

/-- When the Up control has just risen, an accepted edge is Up. -/
theorem acceptedOctave_of_up {s : State} {o : Nat} (h : acceptedOctave s = some o)
    (hup : RisingEdge s bitOctUp) : o = min (s.oct + 1) octMax := by
  have hrise : rise s.bmask s.octPrev bitOctUp = true := (rise_eq_true_iff _ _ _).2 hup
  obtain ⟨-, -, ⟨-, ho⟩ | ⟨hnot, -, -⟩⟩ := acceptedOctave_eq_some_iff.1 h
  · exact ho
  · simp [hrise] at hnot

/-- When the Down control has just risen, an accepted edge is Down: an Up edge with Down held is
Glide-Adjust mode, where nothing is accepted. -/
theorem acceptedOctave_of_down {s : State} {o : Nat} (h : acceptedOctave s = some o)
    (hdown : RisingEdge s bitOctDn) : o = s.oct - 1 := by
  obtain ⟨hmode, -, ⟨hup, -⟩ | ⟨-, -, ho⟩⟩ := acceptedOctave_eq_some_iff.1 h
  · have hboth : both s.bmask = true :=
      (both_eq_true_iff _).2 ⟨hdown.1, ((rise_eq_true_iff _ _ _).1 hup).1⟩
    simp [hboth] at hmode
  · exact ho

/-! ## What each operation does to the octave -/

/-- `DEB.STEP` leaves the octave the accepted edge asks for, or without one the old octave. -/
theorem exec_debStep_oct {s t : State} (h : exec .debStep s = .next t) :
    t.oct = s.oct ∨ acceptedOctave s = some t.oct := by
  change execDebStep s = .next t at h
  rcases execDebStep_cases s with ⟨-, hstep⟩ | ⟨o, ho, hstep⟩ <;> rw [hstep] at h <;> cases h
  · exact .inl rfl
  · exact .inr ho

/-- R81 as one sequencer step. -/
theorem exec_tscCharge_eq_scanStep (s : State) :
    exec .tscCharge s = scanStep 0 1 (fun s => { s with sdrv := .high, acc := 0#32 }) s := rfl

/-- A scan operation keeps the octave if what it does in order keeps it. -/
theorem scanStep_oct {need after : Fin 8} {act : State → State} {s t : State}
    (h : scanStep need after act s = .next t) (hact : (act s).oct = s.oct) : t.oct = s.oct := by
  obtain ⟨-, rfl⟩ := scanStep_next_iff.1 h
  exact hact

/-- Every operation but `RESET` and `DEB.STEP` leaves the octave as it was (R30). -/
theorem exec_oct_frame {i : Instr} {s t : State} (h : exec i s = .next t)
    (hreset : i ≠ .reset) (hdeb : i ≠ .debStep) : t.oct = s.oct := by
  cases i with
  | reset => exact absurd rfl hreset
  | debStep => exact absurd rfl hdeb
  | tscCharge => exact scanStep_oct ((exec_tscCharge_eq_scanStep s).symm.trans h) rfl
  | tscRelease => exact scanStep_oct ((exec_tscRelease_eq_scanStep s).symm.trans h) rfl
  | tscSample k w => exact scanStep_oct ((exec_tscSample_eq_scanStep k w s).symm.trans h) rfl
  | tscFinish => exact scanStep_oct ((exec_tscFinish_eq_scanStep s).symm.trans h) rfl
  | tmrWrap =>
    obtain rfl := Outcome.next.inj ((execTmrWrap_eq s).symm.trans h)
    rfl
  | oscTick =>
    obtain ⟨-, -, rfl⟩ := execOscTick_next_iff.1 h
    rfl
  | oscSetf f =>
    obtain ⟨-, -, rfl⟩ := execOscSetf_next_iff.1 h
    rfl
  | synStep =>
    obtain ⟨_, _, _, _, _, _, hstep, -⟩ := execSynStep_writes s
    obtain rfl := Outcome.next.inj (hstep.symm.trans h)
    rfl
  | dly | oscWrinc | oscSetc | irqDis | irqEn | ctlAdv =>
    obtain rfl := Outcome.next.inj h
    rfl

/-- `RESET` gives the octave its reset value (R30). -/
theorem exec_reset_oct {s t : State} (h : exec .reset s = .next t) : t.oct = octReset := by
  obtain rfl := Outcome.next.inj h
  rfl

/-- `RESET` apart, an operation keeps the octave, or it is `DEB.STEP` and accepted an edge. -/
theorem exec_oct_cases {i : Instr} {s t : State} (h : exec i s = .next t) (hreset : i ≠ .reset) :
    t.oct = s.oct ∨ (i = .debStep ∧ acceptedOctave s = some t.oct) := by
  by_cases hdeb : i = .debStep
  · subst hdeb
    exact (exec_debStep_oct h).imp_right fun ho => ⟨rfl, ho⟩
  · exact .inl (exec_oct_frame h hreset hdeb)

/-! ## The clamp -/

/-- `RESET` apart, an operation moves an octave in range by at most one. -/
theorem exec_oct_near {i : Instr} {s t : State} (h : exec i s = .next t) (hreset : i ≠ .reset)
    (ho : s.oct ≤ octMax) : t.oct ≤ s.oct + 1 ∧ s.oct ≤ t.oct + 1 := by
  rcases exec_oct_cases h hreset with hkept | ⟨-, hedge⟩
  · omega
  · exact acceptedOctave_near hedge ho

/-- Every operation keeps the octave in range (R116). -/
theorem exec_oct_le {i : Instr} {s t : State} (h : exec i s = .next t) (ho : s.oct ≤ octMax) :
    t.oct ≤ octMax := by
  by_cases hreset : i = .reset
  · subst hreset
    rw [exec_reset_oct h]
    decide
  · rcases exec_oct_cases h hreset with hkept | ⟨-, hedge⟩
    · exact hkept ▸ ho
    · exact acceptedOctave_le hedge ho

/-- Every run keeps the octave in range (R116). -/
theorem runOps_oct_le {ops : List Instr} {s t : State} (ho : s.oct ≤ octMax)
    (h : runOps ops s = .next t) : t.oct ≤ octMax := by
  induction ops generalizing s with
  | nil =>
    obtain rfl := Outcome.next.inj h
    exact ho
  | cons i is ih =>
    obtain ⟨u, hu, hrun⟩ := runOps_cons_next_iff.1 h
    exact ih (exec_oct_le hu ho) hrun

/-- An Up edge at the top leaves the top, accepted or not (R116). -/
theorem exec_debStep_oct_of_up {s t : State} (htop : s.oct = octMax) (hup : RisingEdge s bitOctUp)
    (h : exec .debStep s = .next t) : t.oct = octMax := by
  rcases exec_debStep_oct h with hkept | hedge
  · exact hkept.trans htop
  · have := acceptedOctave_of_up hedge hup
    omega

/-- A Down edge at the bottom leaves the bottom, accepted or not (R116). -/
theorem exec_debStep_oct_of_down {s t : State} (hbottom : s.oct = 0)
    (hdown : RisingEdge s bitOctDn) (h : exec .debStep s = .next t) : t.oct = 0 := by
  rcases exec_debStep_oct h with hkept | hedge
  · exact hkept.trans hbottom
  · have := acceptedOctave_of_down hedge hdown
    omega

/-- Settles O43: the writers of the octave, its reset value, and the clamp for one operation, along a
run (by induction on its operations) and at both ends. -/
theorem octaveStaysClamped : Obligations.OctaveStaysClamped := by
  refine ⟨fun i s t h hreset hmoved => ?writer, fun _ _ _ h hreset ho => exec_oct_near h hreset ho,
    fun _ _ h => exec_reset_oct h, fun _ _ _ ho h => runOps_oct_le ho h,
    fun _ _ htop hup h => exec_debStep_oct_of_up htop hup h,
    fun _ _ hbottom hdown h => exec_debStep_oct_of_down hbottom hdown h⟩
  case writer =>
    rcases exec_oct_cases h hreset with hkept | ⟨hdeb, -⟩
    · exact absurd hkept hmoved
    · exact hdeb

end Sys2Proof.Machine
end

section
/-! PROOFS. The timer and the handler beside the foreground (45_synth_control.md R146): both leave every
change of elements they do not touch as it is, before the operation or after it. -/

namespace Sys2Proof.Machine

/-- The operations that are not the foreground's (R70, column "agent"). -/
theorem agent_ne_fg_iff {i : Instr} : i.agent ≠ .fg ↔ i = .tmrWrap ∨ i = .oscTick := by
  cases i <;> simp [Instr.agent]

/-- A change of the state that keeps `PEND` and `IE` and commutes with the handler commutes with
`OSC.TICK`, refusals included. -/
theorem exec_oscTick_mapNext {f : State → State} {s : State} (hpend : (f s).pend = s.pend)
    (hie : (f s).ie = s.ie)
    (hhandler : advancePhase (f s).acknowledge = f (advancePhase s.acknowledge)) :
    exec .oscTick (f s) = mapNext f (exec .oscTick s) := by
  change takeSampleTick advancePhase (f s) = mapNext f (takeSampleTick advancePhase s)
  rw [takeSampleTick, takeSampleTick, hpend, hie, hhandler]
  split
  · rfl
  · split <;> rfl

/-- The handler neither reads nor writes the foreground's elements. -/
theorem exec_oscTick_withForeground (s u : State) :
    exec .oscTick (s.withForeground u) = mapNext (fun t => t.withForeground u) (exec .oscTick s) :=
  exec_oscTick_mapNext (f := fun t => t.withForeground u) rfl rfl rfl

/-- The timer neither reads nor writes the foreground's elements. -/
theorem exec_tmrWrap_withForeground (s u : State) :
    exec .tmrWrap (s.withForeground u) = mapNext (fun t => t.withForeground u) (exec .tmrWrap s) := by
  change execTmrWrap (s.withForeground u) = mapNext _ (execTmrWrap s)
  rw [execTmrWrap_eq, execTmrWrap_eq]
  rfl

/-- Settles O39: the operations concerned are `TMR.WRAP` and `OSC.TICK`. -/
theorem timerAndHandlerLeaveTheForegroundAlone :
    Obligations.TimerAndHandlerLeaveTheForegroundAlone := by
  intro i s u hagent
  rcases agent_ne_fg_iff.1 hagent with rfl | rfl
  · exact exec_tmrWrap_withForeground s u
  · exact exec_oscTick_withForeground s u

end Sys2Proof.Machine
end

section
/-! PROOFS. The synth state machine `SYN.STEP` (45_synth_control.md R125 to R129, R142) and the control
tick counter (R143): one pass by its mode and its highest key, who else writes what a pass writes, and
from both the key priority, the retained target, the range of the glide factor and the gate. -/

namespace Sys2Proof.Machine

open Host (Outcome)

/-! ## Keys and modes in the terms of the statements -/

/-- The scan of a ButtonMask for its highest bit finds the highest key. -/
theorem hsb_eq_some_iff_highestKey {m : Word} {k : Nat} : hsb m = some k ↔ HighestKey m k :=
  hsb_eq_some_iff m k

/-- There is at most one highest key. -/
theorem HighestKey.unique {m : Word} {j k : Nat} (hj : HighestKey m j) (hk : HighestKey m k) :
    j = k :=
  Option.some.inj ((hsb_eq_some_iff_highestKey.2 hj).symm.trans (hsb_eq_some_iff_highestKey.2 hk))

/-- Without a key, the scan for the highest bit finds none. -/
theorem hsb_eq_none_iff_not_keyHeld {s : State} : hsb s.bmask = none ↔ ¬KeyHeld s :=
  (hsb_eq_none_iff s.bmask).trans not_not.symm

/-- The highest key is held. -/
theorem HighestKey.keyHeld {s : State} {k : Nat} (hk : HighestKey s.bmask k) : KeyHeld s := by
  by_contra hnone
  have hfound := hsb_eq_some_iff_highestKey.2 hk
  rw [hsb_eq_none_iff_not_keyHeld.2 hnone] at hfound
  cases hfound

/-- The mode `SYN.STEP` decides is that of the octave controls (R126). -/
theorem both_eq_true_iff_glideAdjust {s : State} : both s.bmask = true ↔ GlideAdjust s :=
  both_eq_true_iff s.bmask

/-- Normal mode as `SYN.STEP` decides it. -/
theorem both_eq_false_iff_not_glideAdjust {s : State} : both s.bmask = false ↔ ¬GlideAdjust s := by
  rw [← both_eq_true_iff_glideAdjust, Bool.not_eq_true]

/-! ## What a pass commits -/

@[simp] theorem synCommit_glide (g t : ℚ) (gate : Bool) (led : Nat) (s : State) :
    (synCommit g t gate led s).glide = g := rfl
@[simp] theorem synCommit_targetFreq (g t : ℚ) (gate : Bool) (led : Nat) (s : State) :
    (synCommit g t gate led s).targetFreq = t := rfl
@[simp] theorem synCommit_gate (g t : ℚ) (gate : Bool) (led : Nat) (s : State) :
    (synCommit g t gate led s).gate = gate := rfl

/-- One pass of `SYN.STEP` from s: its mode, its highest key if there is one, and the state it leaves
(R125). `synPass_of_exec` ties it to the model. -/
inductive SynPass (s : State) : State → Prop
  /-- Glide-Adjust mode with a key: the key sets the glide factor. -/
  | glideKey {k : Nat} (hmode : GlideAdjust s) (hkey : HighestKey s.bmask k) :
      SynPass s (synCommit (glideOf s.cfg k) s.targetFreq false 0 s)
  /-- Glide-Adjust mode without a key. -/
  | glideNoKey (hmode : GlideAdjust s) (hkey : ¬KeyHeld s) :
      SynPass s (synCommit s.glide s.targetFreq false (ledAllOn s.cfg) s)
  /-- Normal mode with a key: the key sets the target. -/
  | normalKey {k : Nat} (hmode : ¬GlideAdjust s) (hkey : HighestKey s.bmask k) :
      SynPass s (synCommit s.glide (readNote (noteIdx s.oct k) s).1 true (ledOctave s.cfg s.oct)
        (readNote (noteIdx s.oct k) s).2)
  /-- Normal mode without a key. -/
  | normalNoKey (hmode : ¬GlideAdjust s) (hkey : ¬KeyHeld s) :
      SynPass s (synCommit s.glide s.targetFreq false (ledOctave s.cfg s.oct) s)

/-- What `SYN.STEP` answers is one of the four passes. -/
theorem synPass_of_exec {s t : State} (h : exec .synStep s = .next t) : SynPass s t := by
  change execSynStep s = .next t at h
  rcases execSynStep_cases s with ⟨hmode, k, hkey, hstep⟩ | ⟨hmode, hkey, hstep⟩ |
    ⟨hmode, k, hkey, hstep⟩ | ⟨hmode, hkey, hstep⟩ <;>
    obtain rfl := Outcome.next.inj (hstep.symm.trans h)
  · exact .glideKey (both_eq_true_iff_glideAdjust.1 hmode) (hsb_eq_some_iff_highestKey.1 hkey)
  · exact .glideNoKey (both_eq_true_iff_glideAdjust.1 hmode) (hsb_eq_none_iff_not_keyHeld.1 hkey)
  · exact .normalKey (both_eq_false_iff_not_glideAdjust.1 hmode) (hsb_eq_some_iff_highestKey.1 hkey)
  · exact .normalNoKey (both_eq_false_iff_not_glideAdjust.1 hmode)
      (hsb_eq_none_iff_not_keyHeld.1 hkey)

/-- In Glide-Adjust mode the highest key selects the glide factor (R127, R129). -/
theorem SynPass.glide_of_key {s t : State} {k : Nat} (hpass : SynPass s t) (hmode : GlideAdjust s)
    (hkey : HighestKey s.bmask k) : t.glide = glideOf s.cfg k := by
  cases hpass with
  | glideKey _ hkey' => rw [synCommit_glide, hkey'.unique hkey]
  | glideNoKey _ hnone => exact absurd hkey.keyHeld hnone
  | normalKey hnormal _ => exact absurd hmode hnormal
  | normalNoKey hnormal _ => exact absurd hmode hnormal

/-- The note index of a key in an octave in range is an index of the table. -/
theorem noteIdx_lt_nNotes {o k : Nat} (ho : o ≤ octMax) (hk : k ≤ 12) : noteIdx o k < nNotes := by
  simp only [noteIdx, octMax, nNotes] at ho ⊢
  omega

/-- The note of a key in an octave in range is an entry of the table, and is read unchanged. -/
theorem readNote_entry {s : State} {k : Nat} (ho : s.oct ≤ octMax) (hk : k ≤ 12) :
    s.cfg.params.note[12 * s.oct + k]? = some (readNote (noteIdx s.oct k) s).1 := by
  have hlt : noteIdx s.oct k < nNotes := noteIdx_lt_nNotes ho hk
  rw [readNote, if_pos hlt]
  exact s.noteAt_entry hlt

/-- In Normal mode the highest key selects the note of the octave as it stands (R127, R128). -/
theorem SynPass.target_of_key {s t : State} {k : Nat} (hpass : SynPass s t) (ho : s.oct ≤ octMax)
    (hmode : ¬GlideAdjust s) (hkey : HighestKey s.bmask k) :
    s.cfg.params.note[12 * s.oct + k]? = some t.targetFreq := by
  cases hpass with
  | normalKey _ hkey' =>
    obtain rfl := hkey'.unique hkey
    exact readNote_entry ho hkey.1
  | normalNoKey _ hnone => exact absurd hkey.keyHeld hnone
  | glideKey hadjust _ => exact absurd hadjust hmode
  | glideNoKey hadjust _ => exact absurd hadjust hmode

/-- The target changes only in Normal mode with a key held (R128). -/
theorem SynPass.target_changed {s t : State} (hpass : SynPass s t)
    (hmoved : t.targetFreq ≠ s.targetFreq) : ¬GlideAdjust s ∧ KeyHeld s := by
  cases hpass with
  | normalKey hmode hkey => exact ⟨hmode, hkey.keyHeld⟩
  | glideKey | glideNoKey | normalNoKey => exact absurd rfl hmoved

/-- The gate opens exactly in Normal mode with a key held (R142). -/
theorem SynPass.gate_iff {s t : State} (hpass : SynPass s t) :
    t.gate = true ↔ ¬GlideAdjust s ∧ KeyHeld s := by
  cases hpass with
  | glideKey hmode _ => simp [hmode]
  | glideNoKey hmode _ => simp [hmode]
  | normalKey hmode hkey => simp [hmode, hkey.keyHeld]
  | normalNoKey _ hnone => simp [hnone]

/-! ## Who writes what a pass writes -/

/-- The glide factor, the target, the gate and the configuration of s stand unchanged in t. -/
structure SynthKept (s t : State) : Prop where
  glide : t.glide = s.glide
  targetFreq : t.targetFreq = s.targetFreq
  gate : t.gate = s.gate
  cfg : t.cfg = s.cfg

/-- A scan operation keeps the synth's elements if what it does in order keeps them. -/
theorem scanStep_synthKept {need after : Fin 8} {act : State → State} {s t : State}
    (h : scanStep need after act s = .next t) (hact : SynthKept s (act s)) : SynthKept s t := by
  obtain ⟨-, rfl⟩ := scanStep_next_iff.1 h
  exact ⟨hact.glide, hact.targetFreq, hact.gate, hact.cfg⟩

/-- No operation but `SYN.STEP` and `RESET` writes the synth's elements (R34, R35, R37). -/
theorem exec_synthKept {i : Instr} {s t : State} (h : exec i s = .next t)
    (hreset : i ≠ .reset) (hsyn : i ≠ .synStep) : SynthKept s t := by
  cases i with
  | reset => exact absurd rfl hreset
  | synStep => exact absurd rfl hsyn
  | tscCharge =>
    exact scanStep_synthKept ((exec_tscCharge_eq_scanStep s).symm.trans h) ⟨rfl, rfl, rfl, rfl⟩
  | tscRelease =>
    exact scanStep_synthKept ((exec_tscRelease_eq_scanStep s).symm.trans h) ⟨rfl, rfl, rfl, rfl⟩
  | tscSample k w =>
    exact scanStep_synthKept ((exec_tscSample_eq_scanStep k w s).symm.trans h) ⟨rfl, rfl, rfl, rfl⟩
  | tscFinish =>
    exact scanStep_synthKept ((exec_tscFinish_eq_scanStep s).symm.trans h) ⟨rfl, rfl, rfl, rfl⟩
  | tmrWrap =>
    obtain rfl := Outcome.next.inj ((execTmrWrap_eq s).symm.trans h)
    exact ⟨rfl, rfl, rfl, rfl⟩
  | oscTick =>
    obtain ⟨-, -, rfl⟩ := execOscTick_next_iff.1 h
    exact ⟨rfl, rfl, rfl, rfl⟩
  | oscSetf f =>
    obtain ⟨-, -, rfl⟩ := execOscSetf_next_iff.1 h
    exact ⟨rfl, rfl, rfl, rfl⟩
  | debStep =>
    rcases execDebStep_cases s with ⟨-, hstep⟩ | ⟨_, -, hstep⟩ <;>
      obtain rfl := Outcome.next.inj (hstep.symm.trans h) <;>
      exact ⟨rfl, rfl, rfl, rfl⟩
  | dly | oscWrinc | oscSetc | irqDis | irqEn | ctlAdv =>
    obtain rfl := Outcome.next.inj h
    exact ⟨rfl, rfl, rfl, rfl⟩

/-- No operation changes the configuration. -/
theorem exec_cfg {i : Instr} {s t : State} (h : exec i s = .next t) : t.cfg = s.cfg := by
  by_cases hreset : i = .reset
  · subst hreset
    obtain rfl := Outcome.next.inj h
    rfl
  by_cases hsyn : i = .synStep
  · subst hsyn
    obtain ⟨_, _, _, _, _, _, hstep, -⟩ := execSynStep_writes s
    obtain rfl := Outcome.next.inj (hstep.symm.trans h)
    rfl
  exact (exec_synthKept h hreset hsyn).cfg

/-! ## The range of the glide factor -/

/-- `GLIDE` lies in (0, 1] (R129). -/
def GlideInRange (s : State) : Prop := 0 < s.glide ∧ s.glide ≤ 1

/-- The factor of every key lies in (0, 1]. -/
theorem glideOf_inRange {c : Config} (hnum : c.params.num = .exact) (k : Nat) :
    0 < glideOf c k ∧ glideOf c k ≤ 1 := by
  have hone : (1 : ℚ) ≤ 10 * (k : ℚ) + 1 := le_add_of_nonneg_left (by positivity)
  rw [glideOf_exact hnum]
  exact ⟨by positivity, div_le_one_of_le₀ hone (by positivity)⟩

/-- A pass either keeps the factor or sets that of a key. -/
theorem SynPass.glideInRange {s t : State} (hpass : SynPass s t) (hnum : s.cfg.params.num = .exact)
    (hs : GlideInRange s) : GlideInRange t := by
  cases hpass with
  | glideKey => exact glideOf_inRange hnum _
  | glideNoKey | normalKey | normalNoKey => exact hs

/-- Every operation keeps the factor in range; `RESET` sets it to 1. -/
theorem exec_glideInRange {i : Instr} {s t : State} (h : exec i s = .next t)
    (hnum : s.cfg.params.num = .exact) (hs : GlideInRange s) : GlideInRange t := by
  by_cases hreset : i = .reset
  · subst hreset
    obtain rfl := Outcome.next.inj h
    exact ⟨one_pos, le_refl _⟩
  by_cases hsyn : i = .synStep
  · subst hsyn
    exact (synPass_of_exec h).glideInRange hnum hs
  · rw [GlideInRange, (exec_synthKept h hreset hsyn).glide]
    exact hs

/-- What every operation keeps holds at the end of every run. -/
theorem runOps_invariant {P : State → Prop}
    (hstep : ∀ (i : Instr) (s t : State), exec i s = .next t → P s → P t)
    {ops : List Instr} {s t : State} (h : runOps ops s = .next t) (hs : P s) : P t := by
  induction ops generalizing s with
  | nil =>
    obtain rfl := Outcome.next.inj h
    exact hs
  | cons i is ih =>
    obtain ⟨u, hu, hrun⟩ := runOps_cons_next_iff.1 h
    exact ih hrun (hstep i s u hu hs)

/-- Under exact rationals every run keeps the factor in range: the numerics stay, since no operation
writes the configuration. -/
theorem runOps_glideInRange {ops : List Instr} {s t : State} (hnum : s.cfg.params.num = .exact)
    (hs : GlideInRange s) (h : runOps ops s = .next t) : GlideInRange t := by
  have hinv : t.cfg.params.num = .exact ∧ GlideInRange t :=
    runOps_invariant (P := fun u => u.cfg.params.num = .exact ∧ GlideInRange u)
      (fun _ _ _ hexec ⟨hu, hg⟩ => ⟨exec_cfg hexec ▸ hu, exec_glideInRange hexec hu hg⟩) h ⟨hnum, hs⟩
  exact hinv.2

/-! ## The obligations -/

/-- Settles O48: the two passes with a key. -/
theorem highestKeyWins : Obligations.HighestKeyWins := by
  intro s t k ho hkey h
  have hpass := synPass_of_exec h
  refine ⟨fun hmode => hpass.target_of_key ho hmode hkey, fun hmode hnum => ?glide⟩
  case glide => rw [hpass.glide_of_key hmode hkey, glideOf_exact hnum]

/-- Settles O49: the one writer of the target, a pass without a key, and a pass in another octave. -/
theorem targetIsRetained : Obligations.TargetIsRetained := by
  refine ⟨fun i s t h hreset hmoved => ?writer, fun s t hnone h => ?noKey,
    fun s t k o ho hmode hkey h => (synPass_of_exec h).target_of_key ho hmode hkey⟩
  case writer =>
    by_cases hsyn : i = .synStep
    · subst hsyn
      exact ⟨rfl, (synPass_of_exec h).target_changed hmoved⟩
    · exact absurd (exec_synthKept h hreset hsyn).targetFreq hmoved
  case noKey =>
    have hpass := synPass_of_exec h
    refine ⟨?closed, ?kept⟩
    case closed => exact Bool.eq_false_iff.2 fun hopen => hnone (hpass.gate_iff.1 hopen).2
    case kept => exact by_contra fun hmoved => hnone (hpass.target_changed hmoved).2

/-- Settles O50: the factor a key sets, and the range as an invariant of runs. -/
theorem glideFactorRange : Obligations.GlideFactorRange := by
  refine ⟨fun s t k hnum hmode hkey h => ?factor,
    fun ops s t hnum hpos hle h => runOps_glideInRange hnum ⟨hpos, hle⟩ h⟩
  case factor => rw [(synPass_of_exec h).glide_of_key hmode hkey, glideOf_exact hnum]

/-- Settles O53: the gate after a pass, its one writer, and a handler that does not read it. -/
theorem gateFollowsTheKeys : Obligations.GateFollowsTheKeys := by
  refine ⟨fun s t h => (synPass_of_exec h).gate_iff, fun i s t h hreset hmoved => ?writer,
    fun s g => exec_oscTick_mapNext (f := fun t => { t with gate := g }) rfl rfl rfl⟩
  case writer =>
    by_contra hsyn
    exact hmoved (exec_synthKept h hreset hsyn).gate

/-- Settles O55: `CTL.ADV` is one update of `TICKS`, without a case. -/
theorem advanceCountsOneTick : Obligations.AdvanceCountsOneTick := by
  intro s
  rfl

end Sys2Proof.Machine
end

section
/-! PROOFS. The trace words (30_encoding.md R69 to R74): a word decodes exactly to the operation
whose opcode and operand are its two fields, and it is refused by its fields alone. -/

namespace Sys2Proof

/-! ## The formats with a check -/

theorem formatN_eq_ok_iff {i j : Instr} {arg : Word} :
    formatN i arg = .ok j ↔ arg = 0#32 ∧ i = j := by
  unfold formatN
  split <;> simp_all

theorem formatF_eq_ok_iff {i j : Instr} {arg : Word} :
    formatF i arg = .ok j ↔ binary32Ok arg = true ∧ i = j := by
  unfold formatF
  split <;> simp_all

theorem formatN_eq_error_iff {i : Instr} {arg : Word} {r : DecodeRefusal} :
    formatN i arg = .error r ↔ arg ≠ 0#32 ∧ r = .invalidWord := by
  unfold formatN
  split <;> rename_i harg
  · simp [harg]
  · simp [harg, eq_comm (a := r)]

theorem formatF_eq_error_iff {i : Instr} {arg : Word} {r : DecodeRefusal} :
    formatF i arg = .error r ↔ binary32 arg = none ∧ r = .badFrequency := by
  unfold formatF binary32
  split <;> rename_i hok
  · simp
  · simp [eq_comm (a := r)]

/-! ## The two fields -/

theorem argField_eq_zero_iff (w : TraceWord) : argField w = 0#32 ↔ w.toNat % 2 ^ 32 = 0 := by
  rw [← argField_toNat, ← BitVec.toNat_inj, BitVec.toNat_zero]

theorem argField_eq_ofNat (w : TraceWord) : BitVec.ofNat 32 (w.toNat % 2 ^ 32) = argField w := by
  rw [← argField_toNat, BitVec.ofNat_toNat, BitVec.setWidth_eq]

/-- A well-formed operation is decoded from its opcode and its operand (R70). -/
theorem decode_of_fields {w : TraceWord} {i : Instr} (hop : opField w = opcode i)
    (harg : argField w = operand i) (hwf : i.wellFormed = true) : decode w = .ok i := by
  unfold decode
  rw [hop, harg]
  cases i with
  | tscSample k v => cases k <;> rfl
  | oscSetf f => exact formatF_eq_ok_iff.2 ⟨hwf, rfl⟩
  | _ => rfl

/-- A word that decodes has the opcode and the operand of its operation, which is well-formed: the
decoder drops no bit (R72). -/
theorem fields_of_decode {w : TraceWord} {i : Instr} (h : decode w = .ok i) :
    opField w = opcode i ∧ argField w = operand i ∧ i.wellFormed = true := by
  rw [← BitVec.toNat_inj]
  unfold decode at h
  split at h <;> rename_i hop
  case h_21 => cases h
  case h_14 =>
    obtain ⟨hok, rfl⟩ := formatF_eq_ok_iff.1 h
    exact ⟨hop, rfl, hok⟩
  case h_2 | h_6 | h_7 | h_8 | h_9 | h_10 | h_13 =>
    obtain rfl := Except.ok.inj h
    exact ⟨hop, rfl, rfl⟩
  all_goals
    obtain ⟨harg, rfl⟩ := formatN_eq_ok_iff.1 h
    exact ⟨hop, harg, rfl⟩

/-! ## The obligations -/

/-- Settles O1: the fields of an encoded operation are its opcode and its operand. -/
theorem decodeOfEncodeIsTheOperation : Obligations.DecodeOfEncodeIsTheOperation := fun i =>
  decode_of_fields (opField_append (opcode i) (operand i)) (argField_append (opcode i) (operand i))

/-- Settles O2: a word is put together again from its two fields. -/
theorem encodeOfDecodeIsTheWord : Obligations.EncodeOfDecodeIsTheWord := by
  intro w i h
  obtain ⟨hop, harg, hwf⟩ := fields_of_decode h
  refine ⟨hwf, ?_⟩
  rw [encode, ← hop, ← harg]
  exact append_fields w

/-- Settles O3: by the rows of the decoder, each of which refuses by its format alone. -/
theorem refusedWordsAndTheirReasons : Obligations.RefusedWordsAndTheirReasons := by
  intro w
  rw [argField_eq_ofNat, ne_eq, ← argField_eq_zero_iff, ← opField_toNat]
  unfold decode
  split <;> rename_i hop
  case h_21 => simp_all
  all_goals simp [hop, formatN_eq_error_iff, formatF_eq_error_iff]

/-- Settles O4: the five bytes make the word again, which decodes to its operation. -/
theorem storedBytesDecode : Obligations.StoredBytesDecode := by
  intro i rest hwf
  rw [wordBytes, List.cons_append, List.cons_append, List.cons_append, List.cons_append,
    List.cons_append, List.nil_append, decodeBytes, bytesWord_of_bytes,
    decodeOfEncodeIsTheOperation i hwf]

/-- Settles O6: ten closed words, evaluated. -/
theorem testVectorWordsDecode : Obligations.TestVectorWordsDecode := by
  refine ⟨?_, ?_, ?_, ?_, ?_, ?_, ?_, ?_, ?_, ?_⟩ <;> decide

end Sys2Proof
end

section
/-! PROOFS. The format-F operand by its fields (30_encoding.md R71): which patterns have a value,
and the value as a power of two. -/

namespace Sys2Proof

/-! ## The fields as numbers -/

theorem f32Sign_eq_decide (p : Word) : f32Sign p = decide (p.toNat / 2 ^ 31 = 1) := by
  have hlt : p.toNat / 2 ^ 31 < 2 := by omega
  rw [f32Sign, BitVec.getLsbD, Nat.testBit_eq_decide_div_mod_eq, Nat.mod_eq_of_lt hlt]

theorem f32Exp_eq (p : Word) : f32Exp p = p.toNat / 2 ^ 23 % 2 ^ 8 := by
  rw [f32Exp, BitVec.extractLsb'_toNat, Nat.shiftRight_eq_div_pow]

theorem f32Mant_eq (p : Word) : f32Mant p = p.toNat % 2 ^ 23 := by
  rw [f32Mant, BitVec.extractLsb'_toNat, Nat.shiftRight_zero]

/-! ## Which patterns have a value -/

/-- A pattern is accepted when it is finite, and zero if it is negative (decision D7). -/
theorem binary32Ok_iff (p : Word) :
    binary32Ok p = true ↔
      f32Exp p ≠ 255 ∧ (f32Sign p = true → f32Exp p = 0 ∧ f32Mant p = 0) := by
  unfold binary32Ok
  cases f32Sign p <;> simp

theorem binary32_of_ok {p : Word} (h : binary32Ok p = true) : binary32 p = some (f32Value p) :=
  if_pos h

theorem binary32_of_not_ok {p : Word} (h : ¬binary32Ok p = true) : binary32 p = none :=
  if_neg h

/-! ## The magnitude -/

/-- A subnormal pattern: m units of 2^(−149). -/
theorem f32Value_of_exp_zero {p : Word} (h : f32Exp p = 0) :
    f32Value p = (f32Mant p : ℚ) * (2 : ℚ) ^ (-149 : ℤ) := by
  rw [f32Value, if_pos h, div_eq_mul_inv, Nat.cast_pow, Nat.cast_ofNat, ← zpow_natCast,
    ← zpow_neg]
  rfl

/-- A normal pattern: the fraction with its leading one, scaled. -/
theorem f32Value_of_exp_ne_zero {p : Word} (h : f32Exp p ≠ 0) :
    f32Value p = (2 ^ 23 + (f32Mant p : ℚ)) * (2 : ℚ) ^ ((f32Exp p : ℤ) - 150) := by
  rw [f32Value, if_neg h, zpow_sub₀ two_ne_zero, mul_div_assoc']
  push_cast
  rfl

/-- Settles O5: the accepted patterns by their fields, and the two forms of the magnitude. -/
theorem binary32OperandValue : Obligations.Binary32OperandValue := by
  intro p
  rw [← f32Exp_eq, ← f32Mant_eq]
  have hsign : f32Sign p = true ↔ p.toNat / 2 ^ 31 = 1 := by simp [f32Sign_eq_decide]
  have hok := binary32Ok_iff p
  rw [hsign] at hok
  refine ⟨fun he => ?infinite, fun hs hne => ?negative, fun hs he hm => ?negativeZero,
    fun hs he => ?subnormal, fun hs hlo hhi => ?normal⟩
  case infinite => exact binary32_of_not_ok fun h => (hok.1 h).1 he
  case negative =>
    refine binary32_of_not_ok fun h => ?_
    obtain ⟨he, hm⟩ := (hok.1 h).2 hs
    exact hne.elim (· he) (· hm)
  case negativeZero =>
    rw [binary32_of_ok (hok.2 ⟨by omega, fun _ => ⟨he, hm⟩⟩), f32Value_of_exp_zero he, hm,
      Nat.cast_zero, zero_mul]
  case subnormal =>
    rw [binary32_of_ok (hok.2 ⟨by omega, fun h => by omega⟩), f32Value_of_exp_zero he]
  case normal =>
    rw [binary32_of_ok (hok.2 ⟨by omega, fun h => by omega⟩),
      f32Value_of_exp_ne_zero (by omega)]

end Sys2Proof
end

section
/-! PROOFS. The check of a configuration from outside (60_exceptions.md R151): its parts in the
order in which they give a reason, each in the terms of the rule. -/

namespace Sys2Proof

/-! ## The parts of the check -/

/-- `SINE` is as R12 asks. -/
theorem Params.sineOk_eq_false_iff (p : Params) :
    p.sineOk = false ↔ p.sine.length ≠ 512 ∨ ∃ v ∈ p.sine, 1023 < v := by
  simp only [Params.sineOk, Bool.and_eq_false_iff, beq_eq_false_iff_ne, List.all_eq_false,
    decide_eq_true_eq, not_lt]
  rfl

/-- `NOTE` is as R10, R12 and R133 ask. -/
theorem Params.noteOk_eq_false_iff (p : Params) :
    p.noteOk = false ↔ p.note.length ≠ 61 ∨ (∃ q ∈ p.note, q < 0) ∨
      p.note[24]? ≠ some (130813 / 1000) := by
  simp only [Params.noteOk, Bool.and_eq_false_iff, beq_eq_false_iff_ne, List.all_eq_false,
    decide_eq_true_eq, not_le, decide_eq_false_iff_not, or_assoc]

/-- The groups pass exactly when any two are disjoint and their union is `SENSE`. -/
theorem Params.groupsOk_iff (p : Params) :
    p.groupsOk = true ↔ (∀ j k, j ≠ k → p.group j &&& p.group k = 0#32) ∧
      p.g1 ||| p.g2 ||| p.g3 ||| p.g4 ||| p.g5 = 0x007FFF00#32 := by
  simp only [Params.groupsOk, Bool.and_eq_true, beq_iff_eq, and_assoc]
  constructor
  · rintro ⟨hunion, h12, h13, h14, h15, h23, h24, h25, h34, h35, h45⟩
    refine ⟨fun j k hjk => ?_, hunion⟩
    cases j <;> cases k <;> simp_all [Params.group, BitVec.and_comm]
  · rintro ⟨hdisjoint, hunion⟩
    exact ⟨hunion, hdisjoint .cp1 .cp2 (by decide), hdisjoint .cp1 .cp3 (by decide),
      hdisjoint .cp1 .cp4 (by decide), hdisjoint .cp1 .cp5 (by decide),
      hdisjoint .cp2 .cp3 (by decide), hdisjoint .cp2 .cp4 (by decide),
      hdisjoint .cp2 .cp5 (by decide), hdisjoint .cp3 .cp4 (by decide),
      hdisjoint .cp3 .cp5 (by decide), hdisjoint .cp4 .cp5 (by decide)⟩

theorem Params.groupsOk_eq_false_iff (p : Params) :
    p.groupsOk = false ↔ (∃ j k, j ≠ k ∧ p.group j &&& p.group k ≠ 0#32) ∨
      p.g1 ||| p.g2 ||| p.g3 ||| p.g4 ||| p.g5 ≠ 0x007FFF00#32 := by
  rw [← Bool.not_eq_true, Params.groupsOk_iff, not_and_or]
  push Not
  rfl

/-- The tables fail when either does. -/
theorem Params.tablesOk_eq_false_iff (p : Params) :
    p.sineOk = false ∨ p.noteOk = false ↔
      p.sine.length ≠ 512 ∨ (∃ v ∈ p.sine, 1023 < v) ∨ p.note.length ≠ 61 ∨
        (∃ q ∈ p.note, q < 0) ∨ p.note[24]? ≠ some (130813 / 1000) := by
  rw [p.sineOk_eq_false_iff, p.noteOk_eq_false_iff, or_assoc]

/-! ## The check as a whole -/

/-- The reason of the check, in its order: rate, tables, groups, LED count. -/
theorem Params.check_eq (p : Params) :
    p.check =
      if p.fs = 0 then some .badRate
      else if p.sineOk = false ∨ p.noteOk = false then some .badTable
      else if p.groupsOk = false then some .badGroups
      else if p.nLed < 5 then some .badLedCount
      else none := by
  unfold Params.check
  cases p.sineOk <;> cases p.noteOk <;> rfl

namespace Machine

/-- A configuration that fails its check is refused for the check's reason. -/
theorem configure_of_check_some {p : Params} {r : ConfigRefusal} (h : p.check = some r) :
    configure p = .refused (Refusal.ofConfig r) := by
  have hinstall : p.install = .error r := by
    unfold Params.install
    split <;> simp_all
  rw [configure, hinstall]

/-- A configuration that passes its check is installed and starts in the reset state. -/
theorem configure_of_check_none {p : Params} (h : p.check = none) :
    ∃ c : Config, c.params = p ∧ configure p = .next (State.resetWith c 0 []) := by
  have hinstall : p.install = .ok ⟨p, h⟩ := (Params.install_ok_iff p ⟨p, h⟩).2 rfl
  exact ⟨⟨p, h⟩, rfl, by rw [configure, hinstall]⟩

/-- Settles O11: each case is one branch of the check. -/
theorem configurationCheck : Obligations.ConfigurationCheck := by
  intro p
  rw [← p.tablesOk_eq_false_iff, ← p.groupsOk_eq_false_iff]
  have hcheck := p.check_eq
  refine ⟨fun hrate => ?_, fun hrate htable => ?_, fun hrate htable hgroups => ?_,
    fun hrate htable hgroups hled => ?_, fun hrate htable hgroups hled => ?_⟩
  · exact configure_of_check_some (by rw [hcheck, if_pos hrate])
  · exact configure_of_check_some (by rw [hcheck, if_neg hrate, if_pos htable])
  · exact configure_of_check_some (by rw [hcheck, if_neg hrate, if_neg htable, if_pos hgroups])
  · exact configure_of_check_some
      (by rw [hcheck, if_neg hrate, if_neg htable, if_neg hgroups, if_pos hled])
  · exact configure_of_check_none
      (by rw [hcheck, if_neg hrate, if_neg htable, if_neg hgroups, if_neg hled.not_gt])

end Machine

end Sys2Proof
end

section
/-! PROOFS. The remap network (30_encoding.md R66) as one wire per output bit. -/

namespace Sys2Proof

/-- The raw bit that reaches output bit b, if one does (raw bit 15 is decision D11). -/
def remapSource (b : Nat) : Option Nat :=
  if b < 6 then some (13 - b)
  else if b < 13 then some (b + 10)
  else if b = 13 then some 14
  else if b = 14 then some 15
  else none

/-- No raw bit reaches an output bit above 14. -/
theorem remapSource_of_ge {b : Nat} (h : 15 ≤ b) : remapSource b = none := by
  rw [remapSource, if_neg (by omega), if_neg (by omega), if_neg (by omega), if_neg (by omega)]

theorem rev6_getLsbD (x : BitVec 6) (i : Nat) :
    (rev6 x).getLsbD i = (decide (i < 6) && x.getLsbD (5 - i)) := by
  rw [rev6, BitVec.getLsbD_reverse, BitVec.getMsbD]

/-- Each output bit is its raw bit, or 0 where none reaches it. -/
theorem remap_getLsbD (t : Word) (b : Nat) :
    (remap t).getLsbD b = (remapSource b).elim false t.getLsbD := by
  simp only [remap, BitVec.getLsbD_or, BitVec.getLsbD_shiftLeft, BitVec.getLsbD_setWidth,
    rev6_getLsbD, BitVec.getLsbD_extractLsb']
  by_cases hb : b < 15
  · interval_cases b <;> simp [remapSource]
  · have hnone : remapSource b = none := remapSource_of_ge (by omega)
    have hrows : ¬b < 6 ∧ ¬b - 6 < 7 ∧ ¬b - 13 < 1 ∧ ¬b - 14 < 1 := by omega
    obtain ⟨h6, h7, h13, h14⟩ := hrows
    simp [hnone, h6, h7, h13, h14]

/-- Settles O17: the wire of each output bit. -/
theorem remapBitByBit : Obligations.RemapBitByBit := by
  intro t
  simp only [remap_getLsbD]
  refine ⟨fun j hj => ?_, fun j hj => ?_, rfl, rfl, fun b hb => ?_⟩
  · have hsource : remapSource (5 - j) = some (8 + j) := by
      rw [remapSource, if_pos (by omega), show 13 - (5 - j) = 8 + j by omega]
    rw [hsource, Option.elim_some]
  · have hsource : remapSource (6 + j) = some (16 + j) := by
      rw [remapSource, if_neg (by omega), if_pos (by omega), show 6 + j + 10 = 16 + j by omega]
    rw [hsource, Option.elim_some]
  · rw [remapSource_of_ge hb, Option.elim_none]

end Sys2Proof
end

section
/-! PROOFS. The value of the frequency conversion (43_freq_update_sync.md R105, R114): under exact
rationals the floor, saturated, with its two thresholds; on a floating-point host what its list
gives. -/

namespace Sys2Proof

/-- A word is the largest increment exactly when its number is. -/
theorem eq_maxInc_iff (v : Word) : v = 0xFFFFFFFF#32 ↔ v.toNat = 2 ^ 32 - 1 := by
  rw [← BitVec.toNat_inj]
  rfl

/-! ## Exact rationals -/

/-- R105: rounded toward zero and saturated (decision D5). -/
theorem freqToInc_exact_toNat {c : Config} {f : ℚ} (hnum : c.params.num = .exact) (hf : 0 ≤ f) :
    (freqToInc c f).toNat = min (2 ^ 32 - 1) ⌊f * 128 * 512 / (c.params.fs : ℚ)⌋.toNat := by
  rw [freqToInc_exact hnum hf, exactConversion_toNat]
  norm_num

/-- The quotient is below n exactly when the frequency is below n units of `FS` / 65536. -/
theorem quotient_lt_iff (c : Config) (f n : ℚ) :
    f * 128 * 512 / (c.params.fs : ℚ) < n ↔ f < n * (c.params.fs : ℚ) / 65536 := by
  rw [div_lt_iff₀ c.fs_cast_pos, lt_div_iff₀ (by norm_num), mul_assoc]
  norm_num

/-- Settles O32: the floor against 1 and against 2^32. -/
theorem conversionValue : Obligations.ConversionValue := by
  intro c f hnum hf
  have hvalue := freqToInc_exact_toNat hnum hf
  have hone := quotient_lt_iff c f 1
  have hmax := quotient_lt_iff c f (2 ^ 32)
  have hnonneg : 0 ≤ f * 128 * 512 / (c.params.fs : ℚ) := by positivity
  generalize f * 128 * 512 / (c.params.fs : ℚ) = q at hvalue hone hmax hnonneg
  have hfloor : 0 ≤ ⌊q⌋ := Int.floor_nonneg.2 hnonneg
  have hlow : ⌊q⌋ < 1 ↔ q < 1 := by simpa using Int.floor_lt (a := q) (z := 1)
  have hhigh : ⌊q⌋ < 2 ^ 32 ↔ q < 2 ^ 32 := by
    rw [Int.floor_lt]
    norm_num
  refine ⟨hvalue, ?zero, fun hlt => ?floor, fun hle => ?saturated⟩
  case zero =>
    rw [← BitVec.toNat_inj, hvalue, ← one_mul (c.params.fs : ℚ), ← hone, ← hlow, BitVec.toNat_zero]
    omega
  case floor =>
    have : ⌊q⌋ < 2 ^ 32 := hhigh.2 (hmax.2 (by linarith))
    omega
  case saturated =>
    have : ¬⌊q⌋ < 2 ^ 32 := fun h => absurd (hmax.1 (hhigh.1 h)) (by linarith)
    rw [eq_maxInc_iff, hvalue]
    omega

/-! ## Floating-point hosts -/

/-- On a floating-point host, a frequency at or above 0 is converted by the host (R114). -/
theorem freqToInc_float {c : Config} {host : Nat} {f : ℚ} (hnum : c.params.num = .float host)
    (hf : 0 ≤ f) : freqToInc c f = (Config.floatHost host).convert c.params.fs f := by
  have hinc : increment c f = floatIncrement host c f := by rw [increment, hnum]
  rw [freqToInc, if_neg hf.not_gt, hinc, floatIncrement, BitVec.ofNat_toNat, BitVec.setWidth_eq]

/-- R114, below saturation: within 1 of the exact quotient. -/
theorem FloatHost.convert_near_quotient (h : FloatHost) {fs : Nat} {f : ℚ} (hfs : 0 < fs)
    (hf : 0 ≤ f) (hq : f * 65536 / (fs : ℚ) < 2 ^ 32) :
    |((h.convert fs f).toNat : ℚ) - f * 65536 / (fs : ℚ)| ≤ 1 := by
  have hunits : f * (prec : ℚ) * (tableLen : ℚ) = f * 65536 := by norm_num [mul_assoc]
  rw [← hunits] at hq ⊢
  exact h.convert_near fs f hfs hf hq

/-- The frequency whose exact quotient is half a unit below 2^32. -/
def belowSaturation (fs : Nat) : ℚ := (2 ^ 32 - 1 / 2) * fs / 65536

theorem belowSaturation_nonneg (fs : Nat) : 0 ≤ belowSaturation fs := by
  unfold belowSaturation
  positivity

theorem belowSaturation_quotient {fs : Nat} (hfs : 0 < fs) :
    belowSaturation fs * 65536 / (fs : ℚ) = 2 ^ 32 - 1 / 2 := by
  have hne : (fs : ℚ) ≠ 0 := by exact_mod_cast hfs.ne'
  rw [belowSaturation, div_mul_cancel₀ _ (by norm_num), mul_div_cancel_right₀ _ hne]

/-- Half a unit below 2^32 the conversion is already above 2^32 − 2. -/
theorem FloatHost.convert_belowSaturation (h : FloatHost) {fs : Nat} (hfs : 0 < fs) :
    2 ^ 32 - 2 < (h.convert fs (belowSaturation fs)).toNat := by
  have hnear := h.convert_near_quotient hfs (belowSaturation_nonneg fs)
    (by rw [belowSaturation_quotient hfs]; norm_num)
  rw [belowSaturation_quotient hfs, abs_le] at hnear
  have hbound : ((2 ^ 32 - 2 : ℕ) : ℚ) < ((h.convert fs (belowSaturation fs)).toNat : ℚ) := by
    push_cast
    linarith
  exact_mod_cast hbound

/-- From a quotient of 2^32 on the conversion is saturated, since it is monotone. -/
theorem FloatHost.convert_saturated (h : FloatHost) {fs : Nat} {f : ℚ} (hfs : 0 < fs)
    (hq : 2 ^ 32 ≤ f * 65536 / (fs : ℚ)) : (h.convert fs f).toNat = 2 ^ 32 - 1 := by
  have hle : belowSaturation fs ≤ f := by
    have hpos : (0 : ℚ) < (fs : ℚ) := by exact_mod_cast hfs
    rw [le_div_iff₀ hpos] at hq
    rw [belowSaturation, div_le_iff₀ (by norm_num)]
    linarith
  have hmono := h.convert_mono fs _ f (belowSaturation_nonneg fs) hle
  have hlow := h.convert_belowSaturation hfs
  have hlt := (h.convert fs f).isLt
  omega

/-- Settles O34: the host's list, and the saturation that follows from it. -/
theorem floatingConversionBounds : Obligations.FloatingConversionBounds := by
  intro c host f hnum hf
  have hvalue := freqToInc_float hnum hf
  refine ⟨?zero, fun f2 hle => ?monotone, fun hq => ?near, fun hq => ?saturated⟩
  case zero => rw [freqToInc_float hnum le_rfl, FloatHost.convert_zero]
  case monotone =>
    rw [hvalue, freqToInc_float hnum (hf.trans hle)]
    exact FloatHost.convert_mono _ _ _ _ hf hle
  case near => rw [hvalue]; exact FloatHost.convert_near_quotient _ c.fs_pos hf hq
  case saturated => rw [hvalue, eq_maxInc_iff, FloatHost.convert_saturated _ c.fs_pos hq]

end Sys2Proof
end

section
/-! PROOFS. What an operation that has a step does, said once over the sixteen operations
(`Effect`), and the operations whose statement is one line of it (30_encoding.md R70). -/

namespace Sys2Proof.Machine

open Host (Outcome)

/-- What an operation that answers a next state did: its guard, and its writes to the state before.
`effect_of_exec` ties it to the model. -/
inductive Effect (s : State) : Instr → State → Prop
  | reset : Effect s .reset (State.resetWith s.cfg s.draws s.trace)
  | dly (n : Word) : Effect s (.dly n) s
  | tscCharge (hdue : s.sstep = 0) :
      Effect s .tscCharge { s with sdrv := .high, acc := 0#32, sstep := 1 }
  | tscRelease (hdue : s.sstep = 1) : Effect s .tscRelease { s with sdrv := .hiz, sstep := 2 }
  | tscSample (k : Checkpoint) (w : Word) (hdue : s.sstep = dueStep k) :
      Effect s (.tscSample k w)
        { s with acc := s.acc ||| (w &&& s.cfg.params.group k), sstep := takenStep k }
  | tscFinish (hdue : s.sstep = 7) :
      Effect s .tscFinish { s with bmask := remap (~~~s.acc &&& sense), sstep := 0 }
  | tmrWrap : Effect s .tmrWrap
      { s with pend := true, faults := if s.pend then s.faults.add .overrun else s.faults }
  | oscTick (hpend : s.pend = true) (hie : s.ie = true) : Effect s .oscTick
      { s with pend := false, phase := s.advancedPhase, duty := s.sineAt (idx s.advancedPhase) }
  | oscWrinc (v : Word) : Effect s (.oscWrinc v) { s with inc := v }
  | oscSetf (f : Word) {q : ℚ} (hq : binary32 f = some q) :
      Effect s (.oscSetf f) { s with inc := freqToInc s.cfg q }
  | oscSetc : Effect s .oscSetc { s with inc := freqToInc s.cfg s.curFreq }
  | irqDis : Effect s .irqDis { s with ie := false }
  | irqEn : Effect s .irqEn { s with ie := true }
  | debKept (hnone : acceptedOctave s = none) :
      Effect s .debStep { s with octPrev := s.bmask &&& octMask }
  | debMoved {o : Nat} (hedge : acceptedOctave s = some o) : Effect s .debStep
      { s with
        oct := o
        octT := if o = s.oct && !s.cfg.params.clampRestarts then s.octT else s.ticks
        octPrev := s.bmask &&& octMask }
  | synStep {g q : ℚ} {gate : Bool} {led : Nat} {f : FaultSet} {d : Nat}
      (hoverrun : s.faults.overrun = f.overrun)
      (hnote : s.faults.noteIndex = true → f.noteIndex = true)
      (hpass : SynPass s { s with
        glide := g, targetFreq := q, curFreq := smooth s.cfg s.curFreq q g, gate := gate, led := led,
        faults := f, draws := d }) : Effect s .synStep
      { s with
        glide := g, targetFreq := q, curFreq := smooth s.cfg s.curFreq q g, gate := gate, led := led,
        faults := f, draws := d }
  | ctlAdv : Effect s .ctlAdv { s with ticks := s.ticks + 1 }

/-- The inversion of one operation: what answered a next state had its effect. -/
theorem effect_of_exec {i : Instr} {s t : State} (h : exec i s = .next t) : Effect s i t := by
  cases i with
  | tscCharge =>
    obtain ⟨hdue, rfl⟩ := scanStep_next_iff.1 ((exec_tscCharge_eq_scanStep s).symm.trans h)
    exact .tscCharge hdue
  | tscRelease =>
    obtain ⟨hdue, rfl⟩ := scanStep_next_iff.1 ((exec_tscRelease_eq_scanStep s).symm.trans h)
    exact .tscRelease hdue
  | tscSample k w =>
    obtain ⟨hdue, rfl⟩ := scanStep_next_iff.1 ((exec_tscSample_eq_scanStep k w s).symm.trans h)
    exact .tscSample k w hdue
  | tscFinish =>
    obtain ⟨hdue, rfl⟩ := scanStep_next_iff.1 ((exec_tscFinish_eq_scanStep s).symm.trans h)
    exact .tscFinish hdue
  | tmrWrap =>
    obtain rfl := Outcome.next.inj ((execTmrWrap_eq s).symm.trans h)
    exact .tmrWrap
  | oscTick =>
    obtain ⟨hpend, hie, rfl⟩ := execOscTick_next_iff.1 h
    exact .oscTick hpend hie
  | oscSetf f =>
    obtain ⟨q, hq, rfl⟩ := execOscSetf_next_iff.1 h
    exact .oscSetf f hq
  | debStep =>
    rcases execDebStep_cases s with ⟨hnone, hstep⟩ | ⟨o, hedge, hstep⟩ <;>
      obtain rfl := Outcome.next.inj (hstep.symm.trans h)
    · exact .debKept hnone
    · exact .debMoved hedge
  | synStep =>
    obtain ⟨_, _, _, _, _, _, hstep, hoverrun, hnote⟩ := execSynStep_writes s
    obtain rfl := Outcome.next.inj (hstep.symm.trans h)
    exact .synStep hoverrun hnote (synPass_of_exec h)
  | reset => obtain rfl := Outcome.next.inj h; exact .reset
  | dly n => obtain rfl := Outcome.next.inj h; exact .dly n
  | oscWrinc v => obtain rfl := Outcome.next.inj h; exact .oscWrinc v
  | oscSetc => obtain rfl := Outcome.next.inj h; exact .oscSetc
  | irqDis => obtain rfl := Outcome.next.inj h; exact .irqDis
  | irqEn => obtain rfl := Outcome.next.inj h; exact .irqEn
  | ctlAdv => obtain rfl := Outcome.next.inj h; exact .ctlAdv

/-! ## Operations of one line -/

/-- Settles O10: `RESET` leaves the reset state, whose fields are given one by one. -/
theorem resetInitialisesEveryElement : Obligations.ResetInitialisesEveryElement := by
  intro s
  exact ⟨State.resetWith s.cfg s.draws s.trace, rfl, by simp⟩

/-- Settles O12: `DLY` has one update, the empty one. -/
theorem delayChangesNothing : Obligations.DelayChangesNothing := by
  intro n s
  rfl

/-- Settles O13: `TSC.CHARGE` is the sequencer step from 0 to 1. -/
theorem chargeStartsAScan : Obligations.ChargeStartsAScan := by
  intro s
  rw [exec_tscCharge_eq_scanStep]
  exact ⟨scanStep_of_sstep_eq, scanStep_of_sstep_ne⟩

/-- `TMR.WRAP` with no tick pending sets `PEND` alone (R95). -/
theorem exec_tmrWrap_of_not_pending {s : State} (hpend : s.pend = false) :
    exec .tmrWrap s = .next { s with pend := true } := by
  refine (execTmrWrap_eq s).trans ?_
  rw [hpend]
  rfl

/-- `TMR.WRAP` with a tick pending adds the mark alone (R95, decision D9). -/
theorem exec_tmrWrap_of_pending {s : State} (hpend : s.pend = true) :
    exec .tmrWrap s = .next { s with faults := { s.faults with overrun := true } } := by
  refine (execTmrWrap_eq s).trans ?_
  cases s
  subst hpend
  rfl

/-- Settles O20: the two values of `PEND`. -/
theorem wrapSetsPendingOrMarksOverrun : Obligations.WrapSetsPendingOrMarksOverrun :=
  fun _ => ⟨exec_tmrWrap_of_not_pending, exec_tmrWrap_of_pending⟩

/-- A frequency operand: one store of its increment (R107). -/
theorem exec_oscSetf_of_some {f : Word} {q : ℚ} (s : State) (hq : binary32 f = some q) :
    exec (.oscSetf f) s = .next { s with inc := freqToInc s.cfg q } :=
  execOscSetf_next_iff.2 ⟨q, hq, rfl⟩

/-- An operand that is no frequency has no step (R71, R107). -/
theorem exec_oscSetf_of_none {f : Word} (s : State) (hf : binary32 f = none) :
    exec (.oscSetf f) s = .refused .badFrequency := by
  change execOscSetf f s = _
  rw [execOscSetf, hf]

/-- Settles O29: the operand with a value and the operand without. -/
theorem setFrequencyStoresItsIncrement : Obligations.SetFrequencyStoresItsIncrement :=
  fun _ s => ⟨fun _ => exec_oscSetf_of_some s, exec_oscSetf_of_none s⟩

/-- Settles O31: each of the two is one write of `IE`. -/
theorem maskOperationsWriteOnlyIe : Obligations.MaskOperationsWriteOnlyIe := by
  intro s
  exact ⟨rfl, rfl⟩

end Sys2Proof.Machine
end

section
/-! PROOFS. Who writes what, from the effects of the operations: the scan sequencer (10_state.md
R29), the interrupt's two bits and the marks (60_exceptions.md section 2), `INC` and the handler's
registers. -/

namespace Sys2Proof.Machine

open Host (Outcome)

/-! ## The scanner -/

/-- The elements the scan operations read and write, and the configuration, stand in t as in s. -/
structure ScanKept (s t : State) : Prop where
  sstep : t.sstep = s.sstep
  sdrv : t.sdrv = s.sdrv
  acc : t.acc = s.acc
  bmask : t.bmask = s.bmask
  cfg : t.cfg = s.cfg

/-- No operation but the scan's own and `RESET` touches the scanner. -/
theorem exec_scanKept {i : Instr} {s t : State} (h : exec i s = .next t) (hreset : i ≠ .reset)
    (hscan : isScanOp i = false) : ScanKept s t := by
  cases effect_of_exec h with
  | reset => exact absurd rfl hreset
  | tscCharge | tscRelease | tscSample | tscFinish => cases hscan
  | _ => exact ⟨rfl, rfl, rfl, rfl, rfl⟩

/-- A scan operation moves the sequencer by one, or `TSC.FINISH` from 7 back to 0. -/
theorem exec_scanOp_sstep {i : Instr} {s t : State} (h : exec i s = .next t)
    (hscan : isScanOp i = true) :
    t.sstep.val = s.sstep.val + 1 ∨ (s.sstep = 7 ∧ t.sstep = 0 ∧ i = .tscFinish) := by
  cases effect_of_exec h with
  | tscCharge hdue => rw [hdue]; exact .inl rfl
  | tscRelease hdue => rw [hdue]; exact .inl rfl
  | tscSample k w hdue =>
    rw [hdue, dueStep_val]
    exact .inl (takenStep_val k)
  | tscFinish hdue => exact .inr ⟨hdue, rfl, rfl⟩
  | _ => cases hscan

/-- `RESET` apart, only `TSC.FINISH` writes the mask. -/
theorem exec_bmask_writer {i : Instr} {s t : State} (h : exec i s = .next t) (hreset : i ≠ .reset)
    (hmoved : t.bmask ≠ s.bmask) : i = .tscFinish := by
  cases effect_of_exec h with
  | reset => exact absurd rfl hreset
  | tscFinish => rfl
  | _ => exact absurd rfl hmoved

/-- Settles O19: the moves of the sequencer, the scanner's frame, and the writer of the mask. -/
theorem sequencerNeverSkips : Obligations.SequencerNeverSkips := by
  intro i s t h hreset
  refine ⟨exec_scanOp_sstep h, fun hscan => ?frame, exec_bmask_writer h hreset⟩
  case frame =>
    have hkept := exec_scanKept h hreset hscan
    exact ⟨hkept.sstep, hkept.sdrv, hkept.acc, hkept.bmask⟩

/-! ## The interrupt's bits -/

/-- `PEND` after an operation (R95, R96). -/
theorem exec_pend {i : Instr} {s t : State} (h : exec i s = .next t) (hreset : i ≠ .reset) :
    t.pend = s.pend ∨ (t.pend = true ∧ i = .tmrWrap) ∨ (t.pend = false ∧ i = .oscTick) := by
  cases effect_of_exec h with
  | reset => exact absurd rfl hreset
  | tmrWrap => exact .inr (.inl ⟨rfl, rfl⟩)
  | oscTick => exact .inr (.inr ⟨rfl, rfl⟩)
  | _ => exact .inl rfl

/-- `IE` after an operation (R110, R111). -/
theorem exec_ie {i : Instr} {s t : State} (h : exec i s = .next t) (hreset : i ≠ .reset) :
    t.ie = s.ie ∨ (t.ie = false ∧ i = .irqDis) ∨ (t.ie = true ∧ i = .irqEn) := by
  cases effect_of_exec h with
  | reset => exact absurd rfl hreset
  | irqDis => exact .inr (.inl ⟨rfl, rfl⟩)
  | irqEn => exact .inr (.inr ⟨rfl, rfl⟩)
  | _ => exact .inl rfl

/-- Settles O27: the writers of `PEND` and of `IE`. -/
theorem interruptBitsHaveOneWriter : Obligations.InterruptBitsHaveOneWriter := by
  intro i s t h hreset
  have hpend := exec_pend h hreset
  have hie := exec_ie h hreset
  refine ⟨fun hs ht => ?_, fun hs ht => ?_, fun hs ht => ?_, fun hs ht => ?_⟩
  · simpa [hs, ht] using hpend
  · simpa [hs, ht] using hpend
  · simpa [hs, ht] using hie
  · simpa [hs, ht] using hie

/-! ## The marks -/

/-- The mark Overrun once set stays (R39). -/
theorem exec_overrun_sticky {i : Instr} {s t : State} (h : exec i s = .next t)
    (hreset : i ≠ .reset) (hs : s.faults.overrun = true) : t.faults.overrun = true := by
  cases effect_of_exec h with
  | reset => exact absurd rfl hreset
  | tmrWrap => dsimp only; split <;> simp [hs]
  | synStep hoverrun => exact hoverrun ▸ hs
  | _ => exact hs

/-- The mark NoteIndex once set stays (R39). -/
theorem exec_noteIndex_sticky {i : Instr} {s t : State} (h : exec i s = .next t)
    (hreset : i ≠ .reset) (hs : s.faults.noteIndex = true) : t.faults.noteIndex = true := by
  cases effect_of_exec h with
  | reset => exact absurd rfl hreset
  | tmrWrap => dsimp only; split <;> simp [hs]
  | synStep _ hnote => exact hnote hs
  | _ => exact hs

/-- Settles O41: the two marks. -/
theorem marksAreSticky : Obligations.MarksAreSticky :=
  fun _ _ _ h hreset => ⟨exec_overrun_sticky h hreset, exec_noteIndex_sticky h hreset⟩

/-! ## `INC`, `PHASE` and `DUTY` -/

/-- No operation but a store and `RESET` writes `INC` (R22). -/
theorem exec_inc_frame {i : Instr} {s t : State} (h : exec i s = .next t) (hreset : i ≠ .reset)
    (hstore : writesInc i = false) : t.inc = s.inc := by
  cases effect_of_exec h with
  | reset => exact absurd rfl hreset
  | oscWrinc | oscSetf | oscSetc => cases hstore
  | _ => rfl

/-- `PHASE` and `DUTY` stand in t as in s. -/
structure HandlerKept (s t : State) : Prop where
  phase : t.phase = s.phase
  duty : t.duty = s.duty

/-- No operation but `OSC.TICK` and `RESET` writes the handler's registers (R21, R23). -/
theorem exec_handlerKept {i : Instr} {s t : State} (h : exec i s = .next t) (hreset : i ≠ .reset)
    (htick : i ≠ .oscTick) : HandlerKept s t := by
  cases effect_of_exec h with
  | reset => exact absurd rfl hreset
  | oscTick => exact absurd rfl htick
  | _ => exact ⟨rfl, rfl⟩

/-- What `OSC.TICK` did, if it ran (R96). -/
theorem of_exec_oscTick {s t : State} (h : exec .oscTick s = .next t) :
    s.pend = true ∧ s.ie = true ∧ t = { s with
      pend := false, phase := s.advancedPhase, duty := s.sineAt (idx s.advancedPhase) } :=
  execOscTick_next_iff.1 h

/-- After a tick `DUTY` is the table entry at the phase. -/
theorem exec_oscTick_dutyTracks {s t : State} (h : exec .oscTick s = .next t) : DutyTracks t := by
  obtain ⟨-, -, rfl⟩ := of_exec_oscTick h
  exact s.sineAt_idx_entry s.advancedPhase

/-- Every operation but `RESET` keeps `DUTY` at the table entry. -/
theorem exec_dutyTracks {i : Instr} {s t : State} (h : exec i s = .next t) (hreset : i ≠ .reset)
    (hs : DutyTracks s) : DutyTracks t := by
  by_cases htick : i = .oscTick
  · subst htick
    exact exec_oscTick_dutyTracks h
  · have hkept := exec_handlerKept h hreset htick
    rw [DutyTracks, hkept.phase, hkept.duty, exec_cfg h]
    exact hs

/-- Settles O58: the tick establishes it, and no other operation touches its three elements. -/
theorem dutyTracksThePhase : Obligations.DutyTracksThePhase :=
  ⟨fun _ _ => exec_oscTick_dutyTracks, fun _ _ _ h hreset => exec_dutyTracks h hreset⟩

end Sys2Proof.Machine
end

section
/-! PROOFS. What each operation reads (10_state.md section 2, 60_exceptions.md section 3): an
operation of the foreground sees the foreground's elements alone, the timer and the handler see none
of them, and no operation but `OSC.TICK` sees `PHASE` or the trace. -/

namespace Sys2Proof.Machine

open Host (Outcome)

/-! ## Outcomes under a change of the state -/

theorem mapNext_eq_next_iff {f : State → State} {o : Outcome State Fault Refusal} {t : State} :
    mapNext f o = .next t ↔ ∃ s, o = .next s ∧ f s = t := by
  cases o <;> simp [mapNext]

/-- Two changes that agree on what an outcome answers change it alike. -/
theorem mapNext_congr {f g : State → State} {o : Outcome State Fault Refusal}
    (h : ∀ t, o = .next t → f t = g t) : mapNext f o = mapNext g o := by
  cases o with
  | next t => exact congrArg Outcome.next (h t rfl)
  | fault r => rfl
  | refused r => rfl

/-- A scan operation commutes with a change it does not see. -/
theorem scanStep_mapNext {need after : Fin 8} {act : State → State} {s r : State}
    {f : State → State} (hsstep : r.sstep = s.sstep)
    (hact : { act r with sstep := after } = f { act s with sstep := after }) :
    scanStep need after act r = mapNext f (scanStep need after act s) := by
  unfold scanStep
  rw [hsstep, hact]
  split <;> rfl

/-! ## The foreground's side of the state -/

/-- Everything the operations of the foreground read and write, those of `sharesWithHandler` apart,
taken from another state: the elements of R146, the mark NoteIndex, the count of draws, and the
configuration, which they only read. -/
def State.withForegroundSide (s u : State) : State :=
  { s.withForeground u with
    faults := { s.faults with noteIndex := u.faults.noteIndex }
    draws := u.draws
    cfg := u.cfg }

theorem State.withForegroundSide_self (s : State) : s.withForegroundSide s = s := rfl

/-- An operation of the foreground that shares nothing with the handler. -/
def IsForegroundOnly (i : Instr) : Prop := i.agent = .fg ∧ sharesWithHandler i = false

/-- The note is read from the foreground's side, and its mark and draw are written there. -/
theorem readNote_withForegroundSide (i : Nat) (r s : State) :
    readNote i (r.withForegroundSide s) =
      ((readNote i s).1, r.withForegroundSide (readNote i s).2) := by
  unfold readNote
  split <;> rfl

/-- `SYN.STEP` reads and writes the foreground's side only. -/
theorem exec_synStep_withForegroundSide (r s : State) :
    exec .synStep (r.withForegroundSide s) = mapNext r.withForegroundSide (exec .synStep s) := by
  have hread := readNote_withForegroundSide (r := r) (s := s)
  have hmask : (r.withForegroundSide s).bmask = s.bmask := rfl
  have hoct : (r.withForegroundSide s).oct = s.oct := rfl
  change execSynStep _ = mapNext _ (execSynStep s)
  unfold execSynStep glideAdjust normalPlay
  rw [hmask, hoct]
  cases both s.bmask <;> cases hsb s.bmask <;> refine congrArg Outcome.next ?_
  case false.some k =>
    dsimp only
    rw [hread]
    rfl
  all_goals rfl

/-- `DEB.STEP` reads and writes the foreground's side only. -/
theorem exec_debStep_withForegroundSide (r s : State) :
    exec .debStep (r.withForegroundSide s) = mapNext r.withForegroundSide (exec .debStep s) := by
  have hedge : acceptedOctave (r.withForegroundSide s) = acceptedOctave s := rfl
  change execDebStep _ = mapNext _ (execDebStep s)
  unfold execDebStep
  rw [hedge]
  cases acceptedOctave s <;> rfl

/-- A foreground-only operation reads and writes the foreground's side only: beside any other
handler side r it does the same. -/
theorem exec_withForegroundSide {i : Instr} (hi : IsForegroundOnly i) (r s : State) :
    exec i (r.withForegroundSide s) = mapNext r.withForegroundSide (exec i s) := by
  obtain ⟨hagent, hshares⟩ := hi
  cases i with
  | tmrWrap | oscTick => cases hagent
  | reset | oscWrinc | oscSetf | oscSetc | irqDis | irqEn => cases hshares
  | tscCharge =>
    rw [exec_tscCharge_eq_scanStep, exec_tscCharge_eq_scanStep]
    exact scanStep_mapNext rfl rfl
  | tscRelease =>
    rw [exec_tscRelease_eq_scanStep, exec_tscRelease_eq_scanStep]
    exact scanStep_mapNext rfl rfl
  | tscSample k w =>
    rw [exec_tscSample_eq_scanStep, exec_tscSample_eq_scanStep]
    exact scanStep_mapNext rfl rfl
  | tscFinish =>
    rw [exec_tscFinish_eq_scanStep, exec_tscFinish_eq_scanStep]
    exact scanStep_mapNext rfl rfl
  | debStep => exact exec_debStep_withForegroundSide r s
  | synStep => exact exec_synStep_withForegroundSide r s
  | dly | ctlAdv => rfl

/-- What a foreground-only operation leaves is the old state with its foreground side rewritten. -/
theorem exec_foregroundOnly_frame {i : Instr} {s t : State} (hi : IsForegroundOnly i)
    (h : exec i s = .next t) : t = s.withForegroundSide t := by
  have hself := exec_withForegroundSide hi s s
  rw [State.withForegroundSide_self, h] at hself
  exact Outcome.next.inj hself

/-- A change of the state that does not touch the foreground's side commutes with every
foreground-only operation. -/
theorem exec_foregroundOnly_mapNext {i : Instr} {f : State → State} (hi : IsForegroundOnly i)
    (hf : ∀ s u, f (s.withForegroundSide u) = (f s).withForegroundSide u) (s : State) :
    exec i (f s) = mapNext f (exec i s) := by
  have hself : f s = (f s).withForegroundSide s := hf s s
  rw [hself, exec_withForegroundSide hi]
  refine mapNext_congr fun t ht => ?_
  rw [exec_foregroundOnly_frame hi ht]
  exact (hf s t).symm

/-! ## The timer and the handler beside the foreground -/

/-- The timer does not see the foreground's side. -/
theorem exec_tmrWrap_withForegroundSide (s u : State) :
    exec .tmrWrap (s.withForegroundSide u) =
      mapNext (fun t => t.withForegroundSide u) (exec .tmrWrap s) := by
  have hpend : (s.withForegroundSide u).pend = s.pend := rfl
  change execTmrWrap _ = mapNext _ (execTmrWrap s)
  rw [execTmrWrap_eq, execTmrWrap_eq, hpend]
  cases s.pend <;> rfl

/-- The handler sees nothing of the foreground's side but the configuration. -/
theorem exec_oscTick_withForegroundSide {s u : State} (hcfg : u.cfg = s.cfg) :
    exec .oscTick (s.withForegroundSide u) =
      mapNext (fun t => t.withForegroundSide u) (exec .oscTick s) := by
  refine exec_oscTick_mapNext (f := fun t => t.withForegroundSide u) rfl rfl ?_
  have hsine : (s.withForegroundSide u).sineAt = s.sineAt := by
    funext i
    unfold State.sineAt
    rw [← hcfg]
    rfl
  exact congrArg (fun look : TableIndex → Duty =>
    { (s.withForegroundSide u).acknowledge with
      phase := s.advancedPhase, duty := look (idx s.advancedPhase) }) hsine

/-- The timer and the handler see none of what the foreground writes, the marks and draws included.
-/
theorem exec_agent_withForegroundSide {a : Instr} {s u : State} (ha : a.agent ≠ .fg)
    (hcfg : u.cfg = s.cfg) : exec a (s.withForegroundSide u) =
      mapNext (fun t => t.withForegroundSide u) (exec a s) := by
  rcases agent_ne_fg_iff.1 ha with rfl | rfl
  · exact exec_tmrWrap_withForegroundSide s u
  · exact exec_oscTick_withForegroundSide hcfg

/-- What the timer and the handler leave keeps the foreground's side. -/
theorem exec_agent_frame {a : Instr} {s t : State} (ha : a.agent ≠ .fg) (h : exec a s = .next t) :
    t = t.withForegroundSide s := by
  have hself := exec_agent_withForegroundSide ha (rfl : s.cfg = s.cfg)
  rw [State.withForegroundSide_self, h] at hself
  exact Outcome.next.inj hself

theorem runOps_pair_next_iff {i j : Instr} {s t : State} :
    runOps [i, j] s = .next t ↔ ∃ u, exec i s = .next u ∧ exec j u = .next t := by
  rw [runOps_cons_next_iff]
  refine exists_congr fun u => and_congr_right fun _ => ?_
  rw [runOps_cons_next_iff]
  simp [runOps]

/-- After a, i does to the foreground side what it does before a, beside the handler side a left. -/
theorem exec_foregroundOnly_after_agent {a i : Instr} {s s1 : State} (ha : a.agent ≠ .fg)
    (hi : IsForegroundOnly i) (h : exec a s = .next s1) :
    exec i s1 = mapNext s1.withForegroundSide (exec i s) :=
  (congrArg (exec i) (exec_agent_frame ha h)).trans (exec_withForegroundSide hi s1 s)

/-- After i, a does to the handler side what it does before i, beside the foreground side i left. -/
theorem exec_agent_after_foregroundOnly {a i : Instr} {s s2 : State} (ha : a.agent ≠ .fg)
    (hi : IsForegroundOnly i) (h : exec i s = .next s2) :
    exec a s2 = mapNext (fun r => r.withForegroundSide s2) (exec a s) := by
  rw [← exec_agent_withForegroundSide ha (exec_cfg h), ← exec_foregroundOnly_frame hi h]

/-- Settles O40: in either order a determines the handler side and i the foreground side. -/
theorem handlerCommutesWithTheForeground : Obligations.HandlerCommutesWithTheForeground := by
  intro a i s t ha hagent hshares
  have hi : IsForegroundOnly i := ⟨hagent, hshares⟩
  rw [runOps_pair_next_iff, runOps_pair_next_iff]
  constructor
  · rintro ⟨s1, h1, hafter⟩
    rw [exec_foregroundOnly_after_agent ha hi h1, mapNext_eq_next_iff] at hafter
    obtain ⟨s2, h2, rfl⟩ := hafter
    refine ⟨s2, h2, ?_⟩
    rw [exec_agent_after_foregroundOnly ha hi h2, h1, mapNext]
  · rintro ⟨s2, h2, hafter⟩
    rw [exec_agent_after_foregroundOnly ha hi h2, mapNext_eq_next_iff] at hafter
    obtain ⟨s1, h1, rfl⟩ := hafter
    refine ⟨s1, h1, ?_⟩
    rw [exec_foregroundOnly_after_agent ha hi h1, h2, mapNext]

/-! ## `PHASE`, `INC` and the trace -/

/-- The operations that share something with the handler, the three stores and the mask, by what
they may read. -/
theorem not_isForegroundOnly_cases {i : Instr} (hreset : i ≠ .reset) (htick : i ≠ .oscTick)
    (hi : ¬IsForegroundOnly i) :
    i = .tmrWrap ∨ writesInc i = true ∨ i = .irqDis ∨ i = .irqEn := by
  cases i with
  | reset => exact absurd rfl hreset
  | oscTick => exact absurd rfl htick
  | tmrWrap => exact .inl rfl
  | oscWrinc | oscSetf | oscSetc => exact .inr (.inl rfl)
  | irqDis => exact .inr (.inr (.inl rfl))
  | irqEn => exact .inr (.inr (.inr rfl))
  | _ => exact absurd ⟨rfl, rfl⟩ hi

/-- A change of `PHASE`, `INC` and the trace, each by itself. -/
def State.mapUnread (a : Phase → Phase) (b : Word → Word) (c : List TraceWord → List TraceWord)
    (s : State) : State :=
  { s with phase := a s.phase, inc := b s.inc, trace := c s.trace }

/-- A store puts the same value wherever the phase and the trace stand. -/
theorem exec_store_mapUnread {i : Instr} (hstore : writesInc i = true) (a : Phase → Phase)
    (c : List TraceWord → List TraceWord) (s : State) :
    exec i (s.mapUnread a id c) = mapNext (State.mapUnread a id c) (exec i s) := by
  cases i with
  | oscWrinc | oscSetc => rfl
  | oscSetf f =>
    change execOscSetf f _ = mapNext _ (execOscSetf f s)
    unfold execOscSetf
    cases binary32 f <;> rfl
  | _ => cases hstore

/-- `RESET` and `OSC.TICK` apart, an operation reads neither `PHASE` nor the trace, and `INC` only
to overwrite it. -/
theorem exec_mapUnread {i : Instr} (hreset : i ≠ .reset) (htick : i ≠ .oscTick)
    (a : Phase → Phase) (b : Word → Word) (c : List TraceWord → List TraceWord)
    (hb : writesInc i = true → b = id) (s : State) :
    exec i (s.mapUnread a b c) = mapNext (State.mapUnread a b c) (exec i s) := by
  by_cases hi : IsForegroundOnly i
  · exact exec_foregroundOnly_mapNext hi (fun _ _ => rfl) s
  rcases not_isForegroundOnly_cases hreset htick hi with rfl | hstore | rfl | rfl
  · change execTmrWrap _ = mapNext _ (execTmrWrap s)
    rw [execTmrWrap_eq, execTmrWrap_eq]
    rfl
  · rw [hb hstore]
    exact exec_store_mapUnread hstore a c s
  · rfl
  · rfl

/-- Settles O37: `PHASE` is one of the elements no such operation reads; `RESET` overwrites it. -/
theorem phaseBelongsToTheHandler : Obligations.PhaseBelongsToTheHandler := by
  intro i s p htick
  refine ⟨fun hreset => exec_mapUnread hreset htick (fun _ => p) id id (fun _ => rfl) s, ?_⟩
  rintro rfl
  rfl

/-- A store does not read the old value of `INC`. -/
theorem exec_store_of_inc {i : Instr} (hstore : writesInc i = true) (s : State) (v : Word) :
    exec i { s with inc := v } = exec i s := by
  cases i with
  | oscWrinc | oscSetf | oscSetc => rfl
  | _ => cases hstore

/-- Settles O38: the writers of `INC`, its one reader, and the stores and `RESET`, which overwrite
it. -/
theorem incIsTheOnlySharedDatum : Obligations.IncIsTheOnlySharedDatum := by
  refine ⟨fun _ _ _ h hreset hstore => exec_inc_frame h hreset hstore,
    fun i s v htick hreset hstore => ?unread, fun i s v hi => ?overwritten⟩
  case unread =>
    exact exec_mapUnread hreset htick id (fun _ => v) id (fun h => by simp [hstore] at h) s
  case overwritten =>
    rcases hi with rfl | hstore
    · rfl
    · exact exec_store_of_inc hstore s v

end Sys2Proof.Machine
end

section
/-! PROOFS. The step and the trace (20_memory.md section 4, 70_reset_and_hazards.md R184): one step
performs the word at the head of the trace, and no operation reads what follows it. -/

namespace Sys2Proof.Machine

open Host (Outcome)

/-! ## One step -/

/-- A trace with a first word: what the decoder says of it decides the step. -/
theorem step_of_trace_cons {s : State} {w : TraceWord} {rest : List TraceWord}
    (h : s.trace = w :: rest) :
    step s = match decode w with
      | .ok i => exec i { s with trace := rest }
      | .error r => .refused (Refusal.ofDecode r) := by
  rw [step, State.fetch, h]
  rfl

theorem step_of_decode_ok {s : State} {w : TraceWord} {rest : List TraceWord} {i : Instr}
    (h : s.trace = w :: rest) (hw : decode w = .ok i) :
    step s = exec i { s with trace := rest } := by
  rw [step_of_trace_cons h, hw]

theorem step_of_decode_error {s : State} {w : TraceWord} {rest : List TraceWord}
    {r : DecodeRefusal} (h : s.trace = w :: rest) (hw : decode w = .error r) :
    step s = .refused (Refusal.ofDecode r) := by
  rw [step_of_trace_cons h, hw]

/-- The end of a run (log 11). -/
theorem step_of_trace_nil {s : State} (h : s.trace = []) : step s = .fault .traceEnd := by
  rw [step, State.fetch, h]

/-- Settles O7: the cases of the decoder, and the trace that has ended. -/
theorem stepRunsTheDecodedOperation : Obligations.StepRunsTheDecodedOperation :=
  ⟨fun _ _ _ _ => step_of_decode_ok, fun _ _ _ => step_of_decode_error,
    fun _ _ _ => step_of_decode_error, fun _ => step_of_trace_nil⟩

/-- Settles O8: the placed word is the word of i, which decodes to i. -/
theorem placedWordIsRun : Obligations.PlacedWordIsRun := by
  intro s i hwf
  have htrace : (s.withFetchWord 40 (encode i).toNat).trace = encode i :: s.trace.tail := by
    rw [State.withFetchWord, State.withTrace_trace, Nat.mod_eq_of_lt (encode i).isLt,
      BitVec.ofNat_toNat, BitVec.setWidth_eq]
  rw [step_of_decode_ok htrace (decodeOfEncodeIsTheOperation i hwf)]
  rfl

/-! ## A run of steps -/

/-- No operation reads or writes the trace: with another one it does the same (log 1). -/
theorem exec_withTrace (i : Instr) (s : State) (tr : List TraceWord) :
    exec i { s with trace := tr } = mapNext (fun t => { t with trace := tr }) (exec i s) := by
  by_cases hreset : i = .reset
  · subst hreset
    rfl
  by_cases htick : i = .oscTick
  · subst htick
    exact exec_oscTick_mapNext (f := fun t => { t with trace := tr }) rfl rfl rfl
  · exact exec_mapUnread hreset htick id id (fun _ => tr) (fun _ => rfl) s

section
variable {M : Host.Core} {k : Nat} {a b : M.State}

theorem coreRun_succ_of_next (h : M.step a = .next b) : M.run (k + 1) a = M.run k b := by
  rw [Host.Core.run, h]

theorem coreRun_succ_of_fault {r : M.Fault} (h : M.step a = .fault r) :
    M.run (k + 1) a = .fault r := by
  rw [Host.Core.run, h]

theorem coreRun_succ_of_refused {r : M.Refusal} (h : M.step a = .refused r) :
    M.run (k + 1) a = .refused r := by
  rw [Host.Core.run, h]

end

section
variable {s t : State}

theorem run_succ_of_step_next {k : Nat} (h : step s = .next t) :
    core.run (k + 1) s = core.run k t :=
  coreRun_succ_of_next (M := core) (a := s) (b := t) h

theorem run_succ_of_step_fault {k : Nat} {r : Fault} (h : step s = .fault r) :
    core.run (k + 1) s = .fault r :=
  coreRun_succ_of_fault (M := core) (a := s) (r := r) h

theorem run_succ_of_step_refused {k : Nat} {r : Refusal} (h : step s = .refused r) :
    core.run (k + 1) s = .refused r :=
  coreRun_succ_of_refused (M := core) (a := s) (r := r) h

theorem runOps_cons_of_next {i : Instr} {is : List Instr} (h : exec i s = .next t) :
    runOps (i :: is) s = runOps is t := by
  rw [runOps, h]

theorem runOps_cons_of_fault {i : Instr} {is : List Instr} {r : Fault} (h : exec i s = .fault r) :
    runOps (i :: is) s = .fault r := by
  rw [runOps, h]

theorem runOps_cons_of_refused {i : Instr} {is : List Instr} {r : Refusal}
    (h : exec i s = .refused r) : runOps (i :: is) s = .refused r := by
  rw [runOps, h]

end

/-- Settles O9: by induction on the operations. Each step performs the first one on the state with
the rest of the trace, which the operation carries along. -/
theorem steppingATraceRunsItsOperations : Obligations.SteppingATraceRunsItsOperations := by
  intro ops
  induction ops with
  | nil => exact fun _ _ _ => rfl
  | cons i is ih =>
    intro s rest hwf
    obtain ⟨hi, his⟩ := List.forall_mem_cons.1 hwf
    have hstep : step { s with trace := (i :: is).map encode ++ rest } =
        mapNext (fun t => { t with trace := is.map encode ++ rest }) (exec i s) := by
      rw [step_of_decode_ok rfl (decodeOfEncodeIsTheOperation i hi)]
      exact exec_withTrace i s _
    have hrun := exec_withTrace i s rest
    cases hexec : exec i s with
    | next t =>
      rw [hexec, mapNext] at hstep hrun
      exact (run_succ_of_step_next hstep).trans
        ((ih t rest his).trans (runOps_cons_of_next hrun).symm)
    | fault r =>
      rw [hexec, mapNext] at hstep hrun
      exact (run_succ_of_step_fault hstep).trans (runOps_cons_of_fault hrun).symm
    | refused r =>
      rw [hexec, mapNext] at hstep hrun
      exact (run_succ_of_step_refused hstep).trans (runOps_cons_of_refused hrun).symm

end Sys2Proof.Machine
end

section
/-! PROOFS. Runs and the sample tick (42_oscillator.md section 3, 43_freq_update_sync.md sections 2
and 3): what a run of operations keeps, the phase it reaches, and what of the phase anything else
depends on. -/

namespace Sys2Proof.Machine

open Host (Outcome)

/-! ## What a run keeps -/

/-- What every operation of the list keeps holds at the end of its run. -/
theorem runOps_invariant_of_mem {P : State → Prop} {ops : List Instr}
    (hstep : ∀ i ∈ ops, ∀ s t : State, exec i s = .next t → P s → P t)
    {s t : State} (h : runOps ops s = .next t) (hs : P s) : P t := by
  induction ops generalizing s with
  | nil =>
    obtain rfl := Outcome.next.inj h
    exact hs
  | cons i is ih =>
    obtain ⟨u, hu, hrun⟩ := runOps_cons_next_iff.1 h
    obtain ⟨hi, his⟩ := List.forall_mem_cons.1 hstep
    exact ih his hrun (hi s u hu hs)

/-- No run changes the configuration. -/
theorem runOps_cfg {ops : List Instr} {s t : State} (h : runOps ops s = .next t) :
    t.cfg = s.cfg :=
  runOps_invariant (P := fun u => u.cfg = s.cfg)
    (fun _ _ _ hexec hu => (exec_cfg hexec).trans hu) h rfl

/-- A run without a store and without a reset keeps `INC`. -/
theorem runOps_inc {ops : List Instr} {s t : State}
    (hops : ∀ i ∈ ops, i ≠ .reset ∧ writesInc i = false) (h : runOps ops s = .next t) :
    t.inc = s.inc :=
  runOps_invariant_of_mem (P := fun u => u.inc = s.inc)
    (fun i hi _ _ hexec hu => (exec_inc_frame hexec (hops i hi).1 (hops i hi).2).trans hu) h rfl

/-- From the first tick to the next reset `DUTY` is the table entry at the phase. -/
theorem runOps_dutyTracks {before after : List Instr} {s t : State} (hreset : .reset ∉ after)
    (h : runOps (before ++ .oscTick :: after) s = .next t) : DutyTracks t := by
  obtain ⟨u, -, hrest⟩ := runOps_append_next_iff.1 h
  obtain ⟨v, htick, hafter⟩ := runOps_cons_next_iff.1 hrest
  exact runOps_invariant_of_mem
    (fun i hi _ _ hexec => exec_dutyTracks hexec (ne_of_mem_of_not_mem hi hreset)) hafter
    (exec_oscTick_dutyTracks htick)

/-! ## The phase a run reaches -/

/-- `OSC.TICK` advances the phase by `INC`. -/
theorem exec_oscTick_phase_toNat {s t : State} (h : exec .oscTick s = .next t) :
    t.phase.toNat = (s.phase.toNat + s.inc.toNat) % 2 ^ 64 := by
  obtain ⟨-, -, rfl⟩ := of_exec_oscTick h
  exact s.advancedPhase_toNat

/-- Each tick of a run advances the phase by the same increment. -/
theorem runOps_phase {ops : List Instr} {s t : State}
    (hops : ∀ i ∈ ops, i ≠ .reset ∧ writesInc i = false) (h : runOps ops s = .next t) :
    t.phase.toNat = (s.phase.toNat + s.inc.toNat * ops.count .oscTick) % 2 ^ 64 := by
  induction ops generalizing s with
  | nil =>
    obtain rfl := Outcome.next.inj h
    simp [Nat.mod_eq_of_lt s.phase.isLt]
  | cons i is ih =>
    obtain ⟨u, hu, hrun⟩ := runOps_cons_next_iff.1 h
    obtain ⟨⟨hreset, hstore⟩, his⟩ := List.forall_mem_cons.1 hops
    rw [ih his hrun, exec_inc_frame hu hreset hstore]
    by_cases htick : i = .oscTick
    · subst htick
      rw [exec_oscTick_phase_toNat hu, Nat.mod_add_mod, List.count_cons_self, Nat.mul_succ,
        Nat.add_right_comm, Nat.add_assoc]
    · rw [(exec_handlerKept hu hreset htick).phase, List.count_cons_of_ne htick]

/-- The table entry at a phase that is given modulo 2^64. -/
theorem tableIndex_of_mod (n : Nat) : n % 2 ^ 64 / prec % tableLen = n % 65536 / 128 := by
  simp only [prec, tableLen]
  omega

/-! ## Sample periods -/

/-- One sample period from an idle, unmasked state (R95, R96). -/
theorem runOps_samplePeriod {s : State} (hpend : s.pend = false) (hie : s.ie = true)
    (is : List Instr) : runOps (.tmrWrap :: .oscTick :: is) s = runOps is { s with
      phase := s.advancedPhase, duty := s.sineAt (idx s.advancedPhase) } := by
  rw [runOps_cons_of_next (exec_tmrWrap_of_not_pending hpend),
    runOps_cons_of_next (exec_oscTick_of_pending (s := { s with pend := true }) rfl hie)]
  cases s
  subst hpend
  rfl

/-- n sample periods complete and write `PHASE` and `DUTY` only. -/
theorem runOps_oscRun (n : Nat) {s : State} (hpend : s.pend = false) (hie : s.ie = true) :
    ∃ t : State, runOps (oscRun n) s = .next t ∧
      t = { s with phase := t.phase, duty := t.duty } := by
  induction n generalizing s with
  | zero => exact ⟨s, rfl, rfl⟩
  | succ n ih =>
    rw [oscRun, runOps_samplePeriod hpend hie]
    exact ih hpend hie

theorem mem_oscRun {n : Nat} {i : Instr} (h : i ∈ oscRun n) : i = .tmrWrap ∨ i = .oscTick := by
  induction n with
  | zero => cases h
  | succ n ih =>
    rw [oscRun, List.mem_cons, List.mem_cons] at h
    rcases h with rfl | rfl | h
    · exact .inl rfl
    · exact .inr rfl
    · exact ih h

theorem oscRun_noStore {n : Nat} : ∀ i ∈ oscRun n, i ≠ .reset ∧ writesInc i = false := by
  intro i hi
  rcases mem_oscRun hi with rfl | rfl <;> exact ⟨by decide, rfl⟩

theorem oscRun_count (n : Nat) : (oscRun n).count .oscTick = n := by
  induction n with
  | zero => rfl
  | succ n ih => rw [oscRun, List.count_cons_of_ne (by decide), List.count_cons_self, ih]

/-- The phase after n sample periods. -/
theorem runOps_oscRun_phase {n : Nat} {s t : State} (h : runOps (oscRun n) s = .next t) :
    t.phase.toNat = (s.phase.toNat + s.inc.toNat * n) % 2 ^ 64 := by
  rw [runOps_phase oscRun_noStore h, oscRun_count]

/-- Settles O22: by induction on the run; the entry is that of the last tick, which no later
operation moves. -/
theorem phaseProgression : Obligations.PhaseProgression := by
  refine ⟨fun ops s t hops h => ?_, fun n s hpend hie => runOps_oscRun n hpend hie⟩
  have hphase := runOps_phase hops h
  refine ⟨hphase, fun hcount => ?duty⟩
  case duty =>
    obtain ⟨before, after, rfl⟩ := List.append_of_mem (List.count_pos_iff.1 hcount)
    have hduty := runOps_dutyTracks
      (fun hmem => (hops _ (List.mem_append_right _ (List.mem_cons_of_mem _ hmem))).1 rfl) h
    rwa [DutyTracks, hphase, tableIndex_of_mod, runOps_cfg h] at hduty

/-- Settles O23: one store, and then n sample periods under the stored increment. -/
theorem setFrequencyRoundTrip : Obligations.SetFrequencyRoundTrip := by
  intro f q n s hq hpend hie
  rw [runOps_cons_of_next (exec_oscSetf_of_some s hq)]
  obtain ⟨t, hrun, ht⟩ := runOps_oscRun n (s := { s with inc := freqToInc s.cfg q }) hpend hie
  exact ⟨t, hrun, by rw [ht], runOps_oscRun_phase hrun⟩

/-- n steps of d return to the start modulo m exactly when n is a multiple of m / gcd(d, m). -/
theorem mod_returns_iff {m : Nat} (hm : 0 < m) (p d n : Nat) :
    (p + d * n) % m = p % m ↔ m / Nat.gcd d m ∣ n := by
  have hdvd : (p + d * n) % m = p % m ↔ m ∣ d * n := by
    change p + d * n ≡ p [MOD m] ↔ m ∣ d * n
    rw [Nat.ModEq.comm, Nat.modEq_iff_dvd' (Nat.le_add_right _ _), Nat.add_sub_cancel_left]
  rw [hdvd, Nat.gcd_comm,
    Nat.div_dvd_iff_dvd_mul (Nat.gcd_dvd_left m d) (Nat.gcd_pos_of_pos_left d hm)]
  exact dvd_gcd_mul_iff_dvd_mul.symm

/-- Settles O25: the phase after n periods, read modulo 65536. -/
theorem waveformPeriod : Obligations.WaveformPeriod := by
  intro n s t _ _ h
  rw [runOps_oscRun_phase h, Nat.mod_mod_of_dvd _ (by decide)]
  exact mod_returns_iff (by decide) _ _ _

/-! ## Boundaries, hand-off, critical section -/

/-- A run without the handler and without a reset keeps a pending tick. -/
theorem runOps_pend {ops : List Instr} {s t : State} (htick : .oscTick ∉ ops)
    (hreset : .reset ∉ ops) (h : runOps ops s = .next t) (hs : s.pend = true) : t.pend = true := by
  refine runOps_invariant_of_mem (P := fun u => u.pend = true) (fun i hi u v hexec hu => ?_) h hs
  rcases exec_pend hexec (ne_of_mem_of_not_mem hi hreset) with hkept | ⟨hv, -⟩ | ⟨-, rfl⟩
  · exact hkept.trans hu
  · exact hv
  · exact absurd hi htick

/-- `TMR.WRAP` leaves a tick pending. -/
theorem exec_tmrWrap_pend {s t : State} (h : exec .tmrWrap s = .next t) : t.pend = true := by
  obtain rfl := Outcome.next.inj ((execTmrWrap_eq s).symm.trans h)
  rfl

/-- Settles O26: the first boundary's tick is still pending at the second one. -/
theorem unservedBoundaryIsMarked : Obligations.UnservedBoundaryIsMarked := by
  intro ops s t htick hreset h
  obtain ⟨s1, hfirst, hrest⟩ := runOps_cons_next_iff.1 h
  obtain ⟨s2, hmiddle, hlast⟩ := runOps_append_next_iff.1 hrest
  have hpend : s2.pend = true := runOps_pend htick hreset hmiddle (exec_tmrWrap_pend hfirst)
  rw [runOps_cons_of_next (exec_tmrWrap_of_pending hpend)] at hlast
  obtain rfl := Outcome.next.inj hlast
  exact ⟨rfl, hpend⟩

/-- Settles O35: the increment the tick adds is the one the store left. -/
theorem handOffUsesTheWholeStoredWord : Obligations.HandOffUsesTheWholeStoredWord := by
  refine ⟨fun i ops s s1 t u _ hops hrun htick => ?_, fun v s s1 h => ?_⟩
  · obtain ⟨-, -, rfl⟩ := of_exec_oscTick htick
    rw [← runOps_inc hops hrun]
    rfl
  · obtain rfl := Outcome.next.inj h
    rfl

/-- A run in the critical section: no tick has a step in it. -/
theorem runOps_masked {ops : List Instr} {s t : State} (hie : s.ie = false)
    (hen : .irqEn ∉ ops) (hreset : .reset ∉ ops) (h : runOps ops s = .next t) :
    .oscTick ∉ ops ∧ HandlerKept s t ∧ t.ie = false := by
  induction ops generalizing s with
  | nil =>
    obtain rfl := Outcome.next.inj h
    exact ⟨List.not_mem_nil, ⟨rfl, rfl⟩, hie⟩
  | cons i is ih =>
    obtain ⟨u, hu, hrun⟩ := runOps_cons_next_iff.1 h
    obtain ⟨heni, henis⟩ := List.ne_and_not_mem_of_not_mem_cons hen
    obtain ⟨hreseti, hresetis⟩ := List.ne_and_not_mem_of_not_mem_cons hreset
    have htick : i ≠ .oscTick := by
      rintro rfl
      obtain ⟨-, hunmasked, -⟩ := of_exec_oscTick hu
      simp [hie] at hunmasked
    have huie : u.ie = false := by
      rcases exec_ie hu (Ne.symm hreseti) with hkept | ⟨hoff, -⟩ | ⟨-, rfl⟩
      · exact hkept.trans hie
      · exact hoff
      · exact absurd rfl heni
    obtain ⟨hnotick, hkept, hend⟩ := ih huie henis hresetis hrun
    have hfirst := exec_handlerKept hu (Ne.symm hreseti) htick
    exact ⟨List.not_mem_cons_of_ne_of_not_mem htick.symm hnotick,
      ⟨hkept.phase.trans hfirst.phase, hkept.duty.trans hfirst.duty⟩, hend⟩

/-- Settles O36: by induction on the run in the critical section. -/
theorem noTickInsideTheCriticalSection : Obligations.NoTickInsideTheCriticalSection := by
  intro ops s t hen hreset h
  obtain ⟨u, hdis, hrun⟩ := runOps_cons_next_iff.1 h
  obtain rfl := Outcome.next.inj hdis
  obtain ⟨hnotick, hkept, hie⟩ := runOps_masked (by rfl) hen hreset hrun
  exact ⟨hnotick, hkept.phase, hkept.duty, hie⟩

/-! ## The low sixteen bits of the phase -/

/-- The index is read below bit 16. -/
theorem idx_congr {p q : Phase} (h : q.toNat % 65536 = p.toNat % 65536) : idx q = idx p := by
  rw [← BitVec.toNat_inj, idx_toNat, idx_toNat]
  simp only [prec, tableLen]
  omega

/-- An advance keeps the agreement of two phases below bit 16. -/
theorem advancedPhase_congr {s : State} {q : Phase} (h : q.toNat % 65536 = s.phase.toNat % 65536) :
    { s with phase := q }.advancedPhase.toNat % 65536 = s.advancedPhase.toNat % 65536 := by
  rw [State.advancedPhase_toNat, State.advancedPhase_toNat]
  dsimp only
  omega

/-- One operation from two states that agree but for the phase's high bits: it completes from both
and keeps the agreement. -/
theorem exec_lowPhase {i : Instr} {s t : State} {q : Phase}
    (hq : q.toNat % 65536 = s.phase.toNat % 65536) (h : exec i s = .next t) :
    ∃ r : Phase, exec i { s with phase := q } = .next { t with phase := r } ∧
      r.toNat % 65536 = t.phase.toNat % 65536 := by
  by_cases htick : i = .oscTick
  · subst htick
    obtain ⟨hpend, hie, rfl⟩ := of_exec_oscTick h
    refine ⟨{ s with phase := q }.advancedPhase, ?_, advancedPhase_congr hq⟩
    rw [exec_oscTick_of_pending (s := { s with phase := q }) hpend hie,
      idx_congr (advancedPhase_congr hq)]
    rfl
  by_cases hreset : i = .reset
  · subst hreset
    obtain rfl := Outcome.next.inj h
    exact ⟨_, rfl, rfl⟩
  · refine ⟨q, ?_, ?_⟩
    · rw [(phaseBelongsToTheHandler i s q htick).1 hreset, h]
      rfl
    · rw [(exec_handlerKept h hreset htick).phase]
      exact hq

/-- Settles O24: by induction on the trace, the two runs in step. -/
theorem onlyTheLowSixteenPhaseBitsMatter : Obligations.OnlyTheLowSixteenPhaseBitsMatter := by
  intro ops
  induction ops with
  | nil =>
    intro s t q hq h
    obtain rfl := Outcome.next.inj h
    exact ⟨_, rfl, rfl, hq⟩
  | cons i is ih =>
    intro s t q hq h
    obtain ⟨u, hu, hrun⟩ := runOps_cons_next_iff.1 h
    obtain ⟨r, hr, hlow⟩ := exec_lowPhase hq hu
    rw [runOps_cons_of_next hr]
    exact ih u t r hlow hrun

end Sys2Proof.Machine
end

section
/-! PROOFS. A whole scan (41_touch_scanner.md section 3): sample ticks and waits do not touch the
scanner, so a run that interleaves them leaves it as the eight scan operations alone do, and those
compute. -/

namespace Sys2Proof.Machine

open Host (Outcome)

/-! ## What may stand inside a scan does not matter to it -/

theorem ScanKept.refl (s : State) : ScanKept s s := ⟨rfl, rfl, rfl, rfl, rfl⟩

/-- Two states that both keep the scanner of a third agree on it. -/
theorem ScanKept.of_common {s t u : State} (ht : ScanKept s t) (hu : ScanKept s u) :
    ScanKept t u where
  sstep := hu.sstep.trans ht.sstep.symm
  sdrv := hu.sdrv.trans ht.sdrv.symm
  acc := hu.acc.trans ht.acc.symm
  bmask := hu.bmask.trans ht.bmask.symm
  cfg := hu.cfg.trans ht.cfg.symm

/-- A scan operation reads and writes the scanner only: from a state with the same scanner it does
the same to it. -/
theorem exec_scanOp_scanKept {i : Instr} {s r t : State} (hscan : isScanOp i = true)
    (hr : ScanKept s r) (h : exec i s = .next t) : ∃ u, exec i r = .next u ∧ ScanKept t u := by
  cases effect_of_exec h with
  | tscCharge hdue =>
    exact ⟨_, (chargeStartsAScan r).1 (hr.sstep.trans hdue), rfl, rfl, rfl, hr.bmask, hr.cfg⟩
  | tscRelease hdue =>
    exact ⟨_, (releaseFloatsTheLines r).1 (hr.sstep.trans hdue), rfl, rfl, hr.acc, hr.bmask, hr.cfg⟩
  | tscSample k w hdue =>
    refine ⟨_, exec_tscSample_of_due w (sstep_eq_dueStep_iff.1 (hr.sstep.trans hdue)), rfl, hr.sdrv,
      ?_, hr.bmask, hr.cfg⟩
    rw [hr.acc, hr.cfg]
  | tscFinish hdue =>
    refine ⟨_, (finishInvertsOnceAndRemaps r).1 (hr.sstep.trans hdue), rfl, hr.sdrv, hr.acc, ?_,
      hr.cfg⟩
    rw [hr.acc]
  | _ => cases hscan

/-- What may interleave is neither a reset nor a scan operation. -/
theorem mayInterleave_frame {i : Instr} (h : mayInterleave i = true) :
    i ≠ .reset ∧ isScanOp i = false := by
  cases i with
  | tmrWrap | oscTick | dly => exact ⟨by simp, rfl⟩
  | _ => cases h

/-- A run with sample ticks and waits anywhere in it leaves the scanner as its scan operations
alone. -/
theorem runOps_filter_isScanOp {ops : List Instr} {s r t : State}
    (hops : ∀ i ∈ ops, isScanOp i = true ∨ mayInterleave i = true) (hr : ScanKept s r)
    (h : runOps ops s = .next t) :
    ∃ u, runOps (ops.filter isScanOp) r = .next u ∧ ScanKept t u := by
  induction ops generalizing s r with
  | nil =>
    obtain rfl := Outcome.next.inj h
    exact ⟨r, rfl, hr⟩
  | cons i is ih =>
    obtain ⟨s1, hfirst, hrun⟩ := runOps_cons_next_iff.1 h
    obtain ⟨hi, his⟩ := List.forall_mem_cons.1 hops
    by_cases hscan : isScanOp i = true
    · obtain ⟨r1, hr1, hkept⟩ := exec_scanOp_scanKept hscan hr hfirst
      rw [List.filter_cons_of_pos hscan, runOps_cons_of_next hr1]
      exact ih his hkept hrun
    · obtain ⟨hreset, hother⟩ := mayInterleave_frame (hi.resolve_left hscan)
      rw [List.filter_cons_of_neg hscan]
      exact ih his ((exec_scanKept hfirst hreset hother).of_common hr) hrun

/-! ## The eight scan operations -/

/-- The answers of a scan, each gated by the group of its checkpoint, in the order they join `ACC`.
-/
def gathered (c : Config) (w : Checkpoint → Word) : Word :=
  0#32 ||| (w .cp1 &&& c.params.group .cp1) ||| (w .cp2 &&& c.params.group .cp2) |||
    (w .cp3 &&& c.params.group .cp3) ||| (w .cp4 &&& c.params.group .cp4) |||
    (w .cp5 &&& c.params.group .cp5)

/-- The state after a scan: idle, the lines released, the readings, and their inversion remapped. -/
def State.scanned (s : State) (w : Checkpoint → Word) : State :=
  { s with
    sdrv := .hiz, sstep := 0, acc := gathered s.cfg w
    bmask := remap (~~~gathered s.cfg w &&& sense) }

/-- The scan operations run through from an idle sequencer. -/
theorem runOps_scanOps {s : State} (hidle : s.sstep = 0) (w : Checkpoint → Word) :
    runOps (scanOps w) s = .next (s.scanned w) := by
  cases s
  subst hidle
  rfl

/-- The answers of `TSC.SCAN` by checkpoint. -/
def answers (w1 w2 w3 w4 w5 : Word) : Checkpoint → Word
  | .cp1 => w1
  | .cp2 => w2
  | .cp3 => w3
  | .cp4 => w4
  | .cp5 => w5

/-- `TSC.SCAN` (R76) runs through from an idle sequencer, its waits without effect. -/
theorem runOps_tscScan {s : State} (hidle : s.sstep = 0) (w1 w2 w3 w4 w5 : Word) :
    runOps (tscScan w1 w2 w3 w4 w5) s = .next (s.scanned (answers w1 w2 w3 w4 w5)) := by
  cases s
  subst hidle
  rfl

/-- A line of one group is in no other. -/
theorem group_bit_unique {c : Config} {j k : Checkpoint} {p : Nat}
    (hk : (c.params.group k).getLsbD p = true) (hjk : j ≠ k) :
    (c.params.group j).getLsbD p = false := by
  have hbit := congrArg (fun v : Word => v.getLsbD p) (c.groups_disjoint hjk)
  simpa [BitVec.getLsbD_and, hk] using hbit

/-- Each line's reading is the answer at the checkpoint of its own group. -/
theorem gathered_getLsbD {c : Config} {w : Checkpoint → Word} {k : Checkpoint} {p : Nat}
    (hk : (c.params.group k).getLsbD p = true) : (gathered c w).getLsbD p = (w k).getLsbD p := by
  have hother {j : Checkpoint} (hjk : j ≠ k) := group_bit_unique hk hjk
  simp only [gathered, BitVec.getLsbD_or, BitVec.getLsbD_and, BitVec.getLsbD_zero, Bool.false_or]
  cases k <;> simp [hk, hother]

/-- Settles O18: the run's scan operations are the eight of one scan, whose effect is computed. -/
theorem wholeScanClosedForm : Obligations.WholeScanClosedForm := by
  refine ⟨fun w ops s t hidle hfilter hops h => ?closedForm, fun w1 w2 w3 w4 w5 s hidle => ?runs⟩
  case closedForm =>
    obtain ⟨u, hu, hkept⟩ := runOps_filter_isScanOp hops (ScanKept.refl s) h
    rw [hfilter, runOps_scanOps hidle] at hu
    obtain rfl := Outcome.next.inj hu
    have hacc : t.acc = gathered s.cfg w := hkept.acc.symm
    refine ⟨hkept.sstep.symm, hkept.sdrv.symm, ?_, ?_, fun k p hk => ?_⟩
    · rw [hacc, gathered, BitVec.zero_or]
      rfl
    · rw [hacc, BitVec.and_comm]
      exact hkept.bmask.symm
    · rw [hacc, gathered_getLsbD hk]
  case runs =>
    refine ⟨_, runOps_tscScan hidle w1 w2 w3 w4 w5, ?_⟩
    rw [State.scanned, ← hidle]

end Sys2Proof.Machine
end

section
/-! PROOFS. The octave debounce (44_octave_debounce.md R115 to R118): `DEB.STEP` by its cases, the
lock-out window between two edges, and the first window after reset. -/

namespace Sys2Proof.Machine

open Host (Outcome)

/-! ## `DEB.STEP` by its cases -/

/-- Without an accepted edge `DEB.STEP` keeps the octave controls alone. -/
theorem exec_debStep_of_none {s : State} (hnone : acceptedOctave s = none) :
    exec .debStep s = .next { s with octPrev := s.bmask &&& octMask } := by
  change execDebStep s = _
  rw [execDebStep, hnone]

/-- An accepted edge writes the octave, and the window's start unless it is a clamp that does not
restart it (decision D15 d). -/
theorem exec_debStep_of_some {s : State} {o : Nat} (hedge : acceptedOctave s = some o) :
    exec .debStep s = .next { s with
      oct := o
      octT := if o = s.oct ∧ s.cfg.params.clampRestarts = false then s.octT else s.ticks
      octPrev := s.bmask &&& octMask } := by
  have hclamp : (decide (o = s.oct) && !s.cfg.params.clampRestarts) = true ↔
      o = s.oct ∧ s.cfg.params.clampRestarts = false := by simp
  change execDebStep s = _
  rw [execDebStep, hedge]
  simp only [acceptEdge, hclamp]

/-- In Glide-Adjust mode no edge is accepted. -/
theorem acceptedOctave_of_glideAdjust {s : State} (hmode : GlideAdjust s) :
    acceptedOctave s = none := by
  rw [acceptedOctave, if_pos (both_eq_true_iff_glideAdjust.2 hmode)]

/-- Inside the window no edge is accepted. -/
theorem acceptedOctave_of_window {s : State} (hwindow : s.ticks - s.octT < s.cfg.params.debTicks) :
    acceptedOctave s = none := by
  rw [acceptedOctave, if_pos hwindow, ite_self]

theorem rise_eq_false_iff {s : State} {b : Nat} :
    rise s.bmask s.octPrev b = false ↔ ¬RisingEdge s b := by
  rw [← Bool.not_eq_true, rise_eq_true_iff]
  rfl

/-- Without an edge nothing is accepted. -/
theorem acceptedOctave_of_no_edge {s : State} (hup : ¬RisingEdge s bitOctUp)
    (hdown : ¬RisingEdge s bitOctDn) : acceptedOctave s = none := by
  rw [acceptedOctave, rise_eq_false_iff.2 hup, rise_eq_false_iff.2 hdown]
  simp

/-- An Up edge outside the window, in Normal mode. -/
theorem acceptedOctave_up {s : State} (hmode : ¬GlideAdjust s)
    (hwindow : s.cfg.params.debTicks ≤ s.ticks - s.octT) (hup : RisingEdge s bitOctUp) :
    acceptedOctave s = some (min (s.oct + 1) octMax) :=
  acceptedOctave_eq_some_iff.2 ⟨both_eq_false_iff_not_glideAdjust.2 hmode, hwindow,
    .inl ⟨(rise_eq_true_iff _ _ _).2 hup, rfl⟩⟩

/-- A Down edge outside the window, in Normal mode, where Up is not held. -/
theorem acceptedOctave_down {s : State} (hmode : ¬GlideAdjust s)
    (hwindow : s.cfg.params.debTicks ≤ s.ticks - s.octT) (hdown : RisingEdge s bitOctDn) :
    acceptedOctave s = some (s.oct - 1) := by
  have hup : ¬RisingEdge s bitOctUp := fun hup => hmode ⟨hdown.1, hup.1⟩
  exact acceptedOctave_eq_some_iff.2 ⟨both_eq_false_iff_not_glideAdjust.2 hmode, hwindow,
    .inr ⟨rise_eq_false_iff.2 hup, (rise_eq_true_iff _ _ _).2 hdown, rfl⟩⟩

/-- Settles O42: the three cases without an accepted edge and the two with one. -/
theorem debounceStep : Obligations.DebounceStep := by
  intro s
  exact ⟨fun hmode => exec_debStep_of_none (acceptedOctave_of_glideAdjust hmode),
    fun hwindow => exec_debStep_of_none (acceptedOctave_of_window hwindow),
    fun hup hdown => exec_debStep_of_none (acceptedOctave_of_no_edge hup hdown),
    fun hmode hwindow hup => exec_debStep_of_some (acceptedOctave_up hmode hwindow hup),
    fun hmode hwindow hdown => exec_debStep_of_some (acceptedOctave_down hmode hwindow hdown)⟩

/-! ## The lock-out window -/

/-- Inside the window `DEB.STEP` keeps the octave. -/
theorem exec_debStep_oct_of_window {s t : State} (h : exec .debStep s = .next t)
    (hwindow : s.ticks - s.octT < s.cfg.params.debTicks) : t.oct = s.oct ∧ t.octT = s.octT := by
  rw [exec_debStep_of_none (acceptedOctave_of_window hwindow)] at h
  obtain rfl := Outcome.next.inj h
  exact ⟨rfl, rfl⟩

/-- An accepted Up edge below the clamp raises the octave and restarts the window. -/
theorem exec_debStep_up {s t : State} (h : exec .debStep s = .next t) (hoct : s.oct < octMax)
    (hmode : ¬GlideAdjust s) (hwindow : s.cfg.params.debTicks ≤ s.ticks - s.octT)
    (hup : RisingEdge s bitOctUp) : t.oct = s.oct + 1 ∧ t.octT = s.ticks := by
  rw [exec_debStep_of_some (acceptedOctave_up hmode hwindow hup)] at h
  obtain rfl := Outcome.next.inj h
  have hmin : min (s.oct + 1) octMax = s.oct + 1 := min_eq_left hoct
  exact ⟨hmin, if_neg fun hclamp => by omega⟩

/-- Settles O44: the first edge starts the window in which the second one stands or does not. -/
theorem lockOutWindow : Obligations.LockOutWindow := by
  intro s t u v hs hmode hup hwindow ht hcfg hoct hoctT _ humode huup hv
  have hmax : octMax = 4 := rfl
  obtain ⟨htoct, htoctT⟩ := exec_debStep_up ht (by omega) hmode hwindow hup
  have hstart : u.octT = s.ticks := hoctT.trans htoctT
  have huoct : u.oct = s.oct + 1 := hoct.trans htoct
  refine ⟨fun hnear => ?_, fun hfar => ?_⟩
  · rw [(exec_debStep_oct_of_window hv (by rw [hstart, hcfg]; exact hnear)).1, huoct]
  · rw [(exec_debStep_up hv (by omega) humode (by rw [hstart, hcfg]; exact hfar) huup).1, huoct]

/-! ## The first window after reset -/

/-- No operation but `DEB.STEP` and `RESET` writes `OCT_T` (R32). -/
theorem exec_octT_frame {i : Instr} {s t : State} (h : exec i s = .next t) (hreset : i ≠ .reset)
    (hdeb : i ≠ .debStep) : t.octT = s.octT := by
  cases effect_of_exec h with
  | reset => exact absurd rfl hreset
  | debKept | debMoved => exact absurd rfl hdeb
  | _ => rfl

/-- `RESET` apart, `CTL.ADV` counts one control tick and no other operation any (R33). -/
theorem exec_ticks {i : Instr} {s t : State} (h : exec i s = .next t) (hreset : i ≠ .reset) :
    t.ticks = s.ticks + [i].count .ctlAdv := by
  cases effect_of_exec h with
  | reset => exact absurd rfl hreset
  | _ => rfl

/-- Until `DEB_TICKS` control ticks have been counted no edge is accepted. -/
theorem runOps_firstWindow {ops : List Instr} {s t : State} (hreset : .reset ∉ ops)
    (hstart : s.octT = 0) (hwindow : s.ticks + ops.count .ctlAdv < s.cfg.params.debTicks)
    (h : runOps ops s = .next t) : t.oct = s.oct ∧ t.octT = 0 := by
  induction ops generalizing s with
  | nil =>
    obtain rfl := Outcome.next.inj h
    exact ⟨rfl, hstart⟩
  | cons i is ih =>
    obtain ⟨u, hu, hrun⟩ := runOps_cons_next_iff.1 h
    obtain ⟨hi, his⟩ := List.ne_and_not_mem_of_not_mem_cons hreset
    have hkept : u.oct = s.oct ∧ u.octT = s.octT := by
      by_cases hdeb : i = .debStep
      · subst hdeb
        exact exec_debStep_oct_of_window hu (by omega)
      · exact ⟨exec_oct_frame hu hi.symm hdeb, exec_octT_frame hu hi.symm hdeb⟩
    obtain ⟨hoct, hoctT⟩ := hkept
    rw [List.count_cons, ← List.count_singleton] at hwindow
    rw [← hoct]
    refine ih his (hoctT.trans hstart) ?_ hrun
    rw [exec_ticks hu hi.symm, exec_cfg hu]
    omega

/-- Settles O45: `OCT_T` and `TICKS` start at 0, and the octave at 2. -/
theorem firstWindowAfterReset : Obligations.FirstWindowAfterReset := by
  intro c d tr ops t hreset hcount h
  exact runOps_firstWindow hreset rfl (by simpa using hcount) h

end Sys2Proof.Machine
end

section
/-! PROOFS. One pass of `SYN.STEP` element by element (45_synth_control.md R125 to R133, R141): the
two modes, the note index, the LEDs, and the smoothing with the target and the factor of the same
tick (decision D17). -/

namespace Sys2Proof.Machine

open Host (Outcome)

/-! ## What a pass leaves -/

@[simp] theorem synCommit_faults (g t : ℚ) (gate : Bool) (led : Nat) (s : State) :
    (synCommit g t gate led s).faults = s.faults := rfl

/-- `SYN.STEP` runs from every state, and is one pass. -/
theorem exec_synStep_runs (s : State) : ∃ t : State, exec .synStep s = .next t ∧ SynPass s t := by
  obtain ⟨_, _, _, _, _, _, hstep, -⟩ := execSynStep_writes s
  exact ⟨_, hstep, synPass_of_exec hstep⟩

/-- Reading a note moves nothing but `FAULTS` and the count of draws. -/
theorem readNote_frame (i : Nat) (s : State) :
    (readNote i s).2 =
      { s with faults := (readNote i s).2.faults, draws := (readNote i s).2.draws } := by
  rcases readNote_cases i s with ⟨-, h⟩ | ⟨-, h⟩
  · rw [h]
  · rw [h]
    rfl

section
variable {s t : State} {k : Nat}

/-- A pass writes the synth's elements, and beyond the note table `FAULTS` and the count of draws.
-/
theorem SynPass.frame (hpass : SynPass s t) : t = { s with
    glide := t.glide, targetFreq := t.targetFreq, curFreq := t.curFreq, gate := t.gate, led := t.led,
    faults := t.faults, draws := t.draws } := by
  cases hpass with
  | normalKey => unfold synCommit; rw [readNote_frame]
  | glideKey | glideNoKey | normalNoKey => rfl

/-- The smoothing uses the target and the factor the same pass leaves (decision D17). -/
theorem SynPass.smoothed (hpass : SynPass s t) :
    t.curFreq = smooth s.cfg s.curFreq t.targetFreq t.glide := by
  cases hpass with
  | normalKey => unfold synCommit; rw [readNote_frame]
  | glideKey | glideNoKey | normalNoKey => rfl

/-! ### Glide-Adjust mode -/

/-- Glide-Adjust mode closes the gate and leaves the target, `FAULTS` and the draws. -/
theorem SynPass.glide_frame (hpass : SynPass s t) (hmode : GlideAdjust s) :
    t = { s with glide := t.glide, curFreq := t.curFreq, gate := false, led := t.led } := by
  cases hpass with
  | glideKey | glideNoKey => rfl
  | normalKey hnormal _ | normalNoKey hnormal _ => exact absurd hmode hnormal

/-- Glide-Adjust mode without a key keeps the factor and lights every LED. -/
theorem SynPass.glide_of_no_key (hpass : SynPass s t) (hmode : GlideAdjust s)
    (hnone : ¬KeyHeld s) : t.glide = s.glide ∧ t.led = 2 ^ s.cfg.params.nLed - 1 := by
  cases hpass with
  | glideKey _ hkey => exact absurd hkey.keyHeld hnone
  | glideNoKey => exact ⟨rfl, rfl⟩
  | normalKey hnormal _ | normalNoKey hnormal _ => exact absurd hmode hnormal

/-- Glide-Adjust mode with a key darkens the LEDs. -/
theorem SynPass.led_of_glide_key (hpass : SynPass s t) (hmode : GlideAdjust s) (hheld : KeyHeld s) :
    t.led = 0 := by
  cases hpass with
  | glideKey => rfl
  | glideNoKey _ hnone => exact absurd hheld hnone
  | normalKey hnormal _ | normalNoKey hnormal _ => exact absurd hmode hnormal

/-- The target stays in Glide-Adjust mode and without a key. -/
theorem SynPass.target_kept (hpass : SynPass s t) (h : GlideAdjust s ∨ ¬KeyHeld s) :
    t.targetFreq = s.targetFreq := by
  by_contra hmoved
  obtain ⟨hmode, hheld⟩ := hpass.target_changed hmoved
  exact h.elim hmode (absurd hheld)

/-! ### Normal mode -/

/-- Normal mode keeps the factor and shows the octave's bit. -/
theorem SynPass.normal_frame (hpass : SynPass s t) (hmode : ¬GlideAdjust s) :
    t = { s with
      targetFreq := t.targetFreq, curFreq := t.curFreq, gate := t.gate,
      led := 2 ^ s.oct % 2 ^ s.cfg.params.nLed, faults := t.faults, draws := t.draws } := by
  have hled : ledOctave s.cfg s.oct = 2 ^ s.oct % 2 ^ s.cfg.params.nLed := by
    rw [ledOctave, Nat.one_shiftLeft]
  rw [← hled]
  cases hpass with
  | normalKey => unfold synCommit; rw [readNote_frame]
  | normalNoKey => rfl
  | glideKey hadjust _ | glideNoKey hadjust _ => exact absurd hadjust hmode

/-- Without a key nothing is read: the gate closes, and the target, `FAULTS` and the draws stay. -/
theorem SynPass.of_no_key (hpass : SynPass s t) (hnone : ¬KeyHeld s) :
    t.targetFreq = s.targetFreq ∧ t.gate = false ∧ t.faults = s.faults ∧ t.draws = s.draws := by
  cases hpass with
  | glideKey _ hkey | normalKey _ hkey => exact absurd hkey.keyHeld hnone
  | glideNoKey | normalNoKey => exact ⟨rfl, rfl, rfl, rfl⟩

/-- In Normal mode a key whose index is in the table selects its entry, without a mark or a draw. -/
theorem SynPass.note_in_range (hpass : SynPass s t) (hmode : ¬GlideAdjust s)
    (hkey : HighestKey s.bmask k) (hrange : 12 * s.oct + k ≤ 60) :
    s.cfg.params.note[12 * s.oct + k]? = some t.targetFreq ∧ t.faults = s.faults ∧
      t.draws = s.draws := by
  have hlt : noteIdx s.oct k < nNotes := Nat.lt_succ_of_le hrange
  cases hpass with
  | normalKey _ hkey' =>
    obtain rfl := hkey'.unique hkey
    rw [readNote, if_pos hlt]
    exact ⟨s.noteAt_entry hlt, rfl, rfl⟩
  | normalNoKey _ hnone => exact absurd hkey.keyHeld hnone
  | glideKey hadjust _ | glideNoKey hadjust _ => exact absurd hadjust hmode

/-- In Normal mode a key whose index is beyond the table sets the mark NoteIndex. -/
theorem SynPass.note_out_of_range (hpass : SynPass s t) (hmode : ¬GlideAdjust s)
    (hkey : HighestKey s.bmask k) (hrange : 60 < 12 * s.oct + k) :
    t.faults = { s.faults with noteIndex := true } := by
  have hge : ¬noteIdx s.oct k < nNotes := Nat.not_lt.2 hrange
  cases hpass with
  | normalKey _ hkey' =>
    obtain rfl := hkey'.unique hkey
    rw [readNote, if_neg hge]
    rfl
  | normalNoKey _ hnone => exact absurd hkey.keyHeld hnone
  | glideKey hadjust _ | glideNoKey hadjust _ => exact absurd hadjust hmode

/-- From an octave in range no pass sets a mark (R132). -/
theorem SynPass.faults_kept (hpass : SynPass s t) (hoct : s.oct ≤ octMax) : t.faults = s.faults := by
  cases hpass with
  | normalKey _ hkey =>
    rw [synCommit_faults, readNote, if_pos (noteIdx_lt_nNotes hoct hkey.1)]
  | glideKey | glideNoKey | normalNoKey => rfl

end

/-! ## The two modes -/

/-- Settles O46: the Glide-Adjust pass, element by element. -/
theorem glideAdjustTick : Obligations.GlideAdjustTick := by
  intro s hmode
  obtain ⟨t, ht, hpass⟩ := exec_synStep_runs s
  have hsmooth := hpass.smoothed
  rw [hpass.target_kept (.inl hmode)] at hsmooth
  refine ⟨t, ht, hpass.glide_frame hmode, hpass.glide_of_no_key hmode, fun k hkey => ?key,
    fun hnum => ?exact, fun host fl hnum hfl => ?float⟩
  case key =>
    have hglide := hpass.glide_of_key hmode hkey
    refine ⟨hpass.led_of_glide_key hmode hkey.keyHeld, fun hnum => ?_, fun host fl hnum hfl => ?_⟩
    · rw [hglide, glideOf_exact hnum]
    · rw [hglide, glideOf_float hnum, hfl]
  case exact => rw [hsmooth, smooth_exact hnum]
  case float => rw [hsmooth, smooth_float hnum, hfl]

/-- Settles O47: the Normal-mode pass, element by element. -/
theorem normalPlayTick : Obligations.NormalPlayTick := by
  intro s hmode
  obtain ⟨t, ht, hpass⟩ := exec_synStep_runs s
  have hframe := hpass.normal_frame hmode
  have hsmooth := hpass.smoothed
  have hglide : t.glide = s.glide := by rw [hframe]
  rw [hglide] at hsmooth
  refine ⟨t, ht, hframe, hpass.of_no_key, fun k hkey => ?key, fun hnum => ?exact,
    fun host fl hnum hfl => ?float⟩
  case key =>
    exact ⟨hpass.gate_iff.2 ⟨hmode, hkey.keyHeld⟩, hpass.note_in_range hmode hkey,
      hpass.note_out_of_range hmode hkey⟩
  case exact => rw [hsmooth, smooth_exact hnum]
  case float => rw [hsmooth, smooth_float hnum, hfl]

/-- Settles O52: the index of a key in an octave in range, and the entry two octaves share. -/
theorem noteIndexInRange : Obligations.NoteIndexInRange := by
  refine ⟨fun s t hoct h => (synPass_of_exec h).faults_kept hoct,
    fun s t u v hcfg huoct hule hsmode humode hskey hukey ht hv => ?shared⟩
  case shared =>
    have hmax : octMax = 4 := rfl
    have hsle : s.oct ≤ octMax := by omega
    have hlow := (synPass_of_exec ht).target_of_key hsle hsmode hskey
    have hhigh := (synPass_of_exec hv).target_of_key hule humode hukey
    rw [hcfg, huoct, show 12 * (s.oct + 1) + 0 = 12 * s.oct + 12 by omega, hlow] at hhigh
    exact Option.some.inj hhigh

/-! ## The LEDs -/

/-- The bit of an octave in range is one of the LEDs, of which there are at least five. -/
theorem two_pow_oct_lt {c : Config} {oct : Nat} (hoct : oct ≤ octMax) :
    2 ^ oct < 2 ^ c.params.nLed :=
  Nat.pow_lt_pow_right (by decide) (lt_of_le_of_lt hoct c.five_le_nLed)

/-- The LED word fits in `N_LED` bits (R38). -/
theorem SynPass.led_lt {s t : State} (hpass : SynPass s t) : t.led < 2 ^ s.cfg.params.nLed := by
  have hpos : 0 < 2 ^ s.cfg.params.nLed := Nat.two_pow_pos _
  cases hpass with
  | glideKey => exact hpos
  | glideNoKey => exact Nat.sub_lt hpos one_pos
  | normalKey | normalNoKey => exact Nat.mod_lt _ hpos

/-- Settles O54: the LED word of each mode, and the pins as its complement. -/
theorem ledsShowTheOctaveOrTheMode : Obligations.LedsShowTheOctaveOrTheMode := by
  intro s t hoct h
  have hpass := synPass_of_exec h
  refine ⟨fun hmode => ?octave, fun hmode hheld => hpass.led_of_glide_key hmode hheld,
    fun hmode hnone => (hpass.glide_of_no_key hmode hnone).2, hpass.led_lt, ?pins⟩
  case octave => rw [hpass.normal_frame hmode, Nat.mod_eq_of_lt (two_pow_oct_lt hoct)]
  case pins =>
    have hlt := hpass.led_lt
    rw [State.ledPins, exec_cfg h]
    omega

end Sys2Proof.Machine
end

section
/-! PROOFS. The smoothing of `CUR_FREQ` (45_synth_control.md R130, R131): under exact rationals the
difference to the target shrinks by one factor each pass; on a floating-point host it does so up to
the rounding errors of its three roundings. -/

namespace Sys2Proof.Machine

open Host (Outcome)

/-! ## Exact rationals -/

/-- One pass multiplies the difference to its target by 1 − g. -/
theorem SynPass.difference {s t : State} (hpass : SynPass s t) (hnum : s.cfg.params.num = .exact) :
    t.curFreq - t.targetFreq = (1 - t.glide) * (s.curFreq - t.targetFreq) := by
  rw [hpass.smoothed, smooth_exact hnum]
  ring

/-- Scaling a difference by a factor in [0, 1] leaves the value between its old place and the
target. -/
theorem between_of_difference {c c' q g : ℚ} (h : c' - q = (1 - g) * (c - q)) (hg0 : 0 ≤ g)
    (hg1 : g ≤ 1) : min c q ≤ c' ∧ c' ≤ max c q := by
  have hc' : c' = (1 - g) * c + g * q := by linarith
  have hkeep : 0 ≤ 1 - g := sub_nonneg.2 hg1
  have hmin : min c q = (1 - g) * min c q + g * min c q := by ring
  have hmax : max c q = (1 - g) * max c q + g * max c q := by ring
  rw [hc', hmin, hmax]
  exact ⟨add_le_add (mul_le_mul_of_nonneg_left (min_le_left c q) hkeep)
      (mul_le_mul_of_nonneg_left (min_le_right c q) hg0),
    add_le_add (mul_le_mul_of_nonneg_left (le_max_left c q) hkeep)
      (mul_le_mul_of_nonneg_left (le_max_right c q) hg0)⟩

/-- With a fixed target a pass reaches for that target, by the factor that stands. -/
theorem FixedTarget.pass {s t : State} {q : ℚ} (hfixed : FixedTarget s q)
    (hnum : s.cfg.params.num = .exact) (hpass : SynPass s t) :
    t.targetFreq = q ∧ t.glide = s.glide := by
  rcases hfixed with ⟨hnone, rfl⟩ | ⟨hmode, k, hkey, hnote⟩ | ⟨hmode, rfl, k, hkey, hglide⟩
  · refine ⟨hpass.target_kept (.inr hnone), ?_⟩
    cases hpass with
    | glideKey _ hkey | normalKey _ hkey => exact absurd hkey.keyHeld hnone
    | glideNoKey | normalNoKey => rfl
  · obtain ⟨hlt, -⟩ := List.getElem?_eq_some_iff.1 hnote
    rw [s.cfg.note_length] at hlt
    have hread := (hpass.note_in_range hmode hkey (Nat.le_of_lt_succ hlt)).1
    refine ⟨Option.some.inj (hread.symm.trans hnote), ?_⟩
    rw [hpass.normal_frame hmode]
  · exact ⟨hpass.target_kept (.inl hmode),
      by rw [hpass.glide_of_key hmode hkey, glideOf_exact hnum, hglide]⟩

/-- A pass keeps the target fixed: it writes neither the mask, nor the octave, nor the tables. -/
theorem FixedTarget.kept {s t : State} {q : ℚ} (hfixed : FixedTarget s q)
    (hnum : s.cfg.params.num = .exact) (hpass : SynPass s t) : FixedTarget t q := by
  obtain ⟨htarget, hglide⟩ := hfixed.pass hnum hpass
  have hmask : t.bmask = s.bmask := by rw [hpass.frame]
  have hoct : t.oct = s.oct := by rw [hpass.frame]
  have hcfg : t.cfg = s.cfg := by rw [hpass.frame]
  rw [FixedTarget, KeyHeld, GlideAdjust, hmask, hoct, hcfg, htarget, hglide]
  exact hfixed.imp (And.imp_right fun _ => rfl)
    (Or.imp id (And.imp_right (And.imp_left fun _ => rfl)))

/-- n passes with a fixed target: they complete, and shrink the difference by (1 − g)^n. -/
theorem FixedTarget.passes {s : State} {q : ℚ} (hfixed : FixedTarget s q)
    (hnum : s.cfg.params.num = .exact) (n : Nat) :
    ∃ t : State, runOps (List.replicate n .synStep) s = .next t ∧
      (0 < n ∨ q = s.targetFreq → t.targetFreq = q) ∧ t.glide = s.glide ∧
      t.curFreq - q = (1 - s.glide) ^ n * (s.curFreq - q) := by
  induction n generalizing s with
  | zero => exact ⟨s, rfl, fun h => (h.resolve_left (lt_irrefl 0)).symm, rfl, by simp⟩
  | succ n ih =>
    obtain ⟨u, hu, hpass⟩ := exec_synStep_runs s
    obtain ⟨htarget, hglide⟩ := hfixed.pass hnum hpass
    obtain ⟨t, hrun, hend, hgt, hdiff⟩ := ih (hfixed.kept hnum hpass) (exec_cfg hu ▸ hnum)
    have hfirst := hpass.difference hnum
    rw [htarget, hglide] at hfirst
    refine ⟨t, ?_, fun _ => hend (.inr htarget.symm), hgt.trans hglide, ?_⟩
    · rw [List.replicate_succ, runOps_cons_of_next hu, hrun]
    · rw [hdiff, hfirst, hglide, pow_succ, mul_assoc]

/-- A geometric factor below 1 falls below every bound and stays there. -/
theorem exists_pow_mul_lt {r d ε : ℚ} (hr0 : 0 ≤ r) (hr1 : r < 1) (hd : 0 ≤ d) (hε : 0 < ε) :
    ∃ N : Nat, ∀ n ≥ N, r ^ n * d < ε := by
  have hpos : 0 < d + 1 := by positivity
  obtain ⟨N, hN⟩ := exists_pow_lt_of_lt_one (div_pos hε hpos) hr1
  refine ⟨N, fun n hn => ?_⟩
  calc r ^ n * d ≤ r ^ n * (d + 1) := mul_le_mul_of_nonneg_left (by linarith) (pow_nonneg hr0 n)
    _ ≤ r ^ N * (d + 1) := mul_le_mul_of_nonneg_right (pow_le_pow_of_le_one hr0 hr1.le hn) hpos.le
    _ < ε := (lt_div_iff₀ hpos).1 hN

/-- Settles O51: one pass scales the difference, n passes scale it n times (by induction), and the
powers of a factor below 1 vanish. -/
theorem smoothingConverges : Obligations.SmoothingConverges := by
  refine ⟨fun s t hnum h => ?onePass, fun n s q hnum hfixed => ?passes,
    fun s q ε hnum hfixed hg0 hg1 hε => ?limit⟩
  case onePass =>
    have hdiff := (synPass_of_exec h).difference hnum
    refine ⟨hdiff, fun hg => ?_, between_of_difference hdiff⟩
    rwa [hg, sub_self, zero_mul, sub_eq_zero] at hdiff
  case passes =>
    obtain ⟨t, hrun, htarget, hglide, hdiff⟩ := hfixed.passes hnum n
    refine ⟨t, hrun, htarget, hglide, hdiff, fun _ hg1 hne => ?_⟩
    rw [← sub_ne_zero, hdiff]
    exact mul_ne_zero (pow_ne_zero n (sub_pos.2 hg1).ne') (sub_ne_zero.2 hne)
  case limit =>
    obtain ⟨N, hN⟩ := exists_pow_mul_lt (r := 1 - s.glide) (sub_nonneg.2 hg1) (by linarith)
      (abs_nonneg (s.curFreq - q)) hε
    refine ⟨N, fun n hn t h => ?_⟩
    obtain ⟨t', hrun, -, -, hdiff⟩ := hfixed.passes hnum n
    obtain rfl := Outcome.next.inj (hrun.symm.trans h)
    rw [hdiff, abs_mul, abs_of_nonneg (pow_nonneg (sub_nonneg.2 hg1) n)]
    exact hN n hn

end Sys2Proof.Machine

/-! ## Floating-point hosts -/

namespace Sys2Proof

section
variable (h : FloatHost)

/-- The bound of one rounding grows with the size of what is rounded. -/
theorem FloatHost.errorAt_mono {x y : ℚ} (hxy : |x| ≤ |y|) : h.errorAt x ≤ h.errorAt y :=
  add_le_add_left (mul_le_mul_of_nonneg_left hxy h.relError_nonneg) _

/-- What is rounded lies within a size, so its error lies within the bound there. -/
theorem FloatHost.fl_error_le {q b : ℚ} (hq : |q| ≤ h.largest) (hb : |q| ≤ b) :
    |h.fl q - q| ≤ h.errorAt b :=
  (h.fl_error q hq).trans (h.errorAt_mono (hb.trans (le_abs_self b)))

/-- A number of the format times 1 is not rounded again. -/
theorem FloatHost.fl_mul_one (d : ℚ) : h.fl (h.fl d * 1) = h.fl d := by
  rw [mul_one, h.fl_idem]

/-- The sum of a smoothing step with factor 1 lies within one rounding error of the target. -/
theorem FloatHost.snap_error {c t : ℚ} (hov : h.NoOverflow c t 1) :
    |h.fl (c + h.fl (t - c)) - t| ≤
      h.errorAt (t - c) + h.errorAt (|t| + h.errorAt (t - c)) := by
  obtain ⟨hdiff, -, hsum⟩ := hov
  rw [h.fl_mul_one] at hsum
  have e1 : |h.fl (t - c) - (t - c)| ≤ h.errorAt (t - c) := h.fl_error _ hdiff
  have hsize : |c + h.fl (t - c)| ≤ |t| + h.errorAt (t - c) := by
    calc |c + h.fl (t - c)| = |t + (h.fl (t - c) - (t - c))| := by congr 1; ring
      _ ≤ |t| + |h.fl (t - c) - (t - c)| := abs_add_le _ _
      _ ≤ |t| + h.errorAt (t - c) := by linarith
  have e2 := h.fl_error_le hsum hsize
  calc |h.fl (c + h.fl (t - c)) - t|
      = |(h.fl (t - c) - (t - c)) + (h.fl (c + h.fl (t - c)) - (c + h.fl (t - c)))| := by
        congr 1; ring
    _ ≤ |h.fl (t - c) - (t - c)| + |h.fl (c + h.fl (t - c)) - (c + h.fl (t - c))| := abs_add_le _ _
    _ ≤ _ := add_le_add e1 e2

/-- A factor in [0, 1] does not make a number larger. -/
theorem abs_mul_le_of_factor {x g : ℚ} (hg0 : 0 ≤ g) (hg1 : g ≤ 1) : |x * g| ≤ |x| := by
  rw [abs_mul, abs_of_nonneg hg0]
  exact mul_le_of_le_one_right (abs_nonneg x) hg1

/-- The exact smoothing step lies no farther out than its two ends. -/
theorem abs_smooth_le {c t g : ℚ} (hg0 : 0 ≤ g) (hg1 : g ≤ 1) :
    |c + (t - c) * g| ≤ max |c| |t| := by
  have hdiff : c + (t - c) * g - t = (1 - g) * (c - t) := by ring
  obtain ⟨hlow, hhigh⟩ := Machine.between_of_difference hdiff hg0 hg1
  rcases le_total c t with hct | hct
  · rw [min_eq_left hct] at hlow
    rw [max_eq_right hct] at hhigh
    exact abs_le_max_abs_abs hlow hhigh
  · rw [min_eq_right hct] at hlow
    rw [max_eq_left hct] at hhigh
    rw [max_comm]
    exact abs_le_max_abs_abs hlow hhigh

/-- The bound of a smoothing step is that of its three roundings. -/
theorem FloatHost.smoothingError_eq (c t : ℚ) :
    h.smoothingError c t = h.errorAt (t - c) + h.errorAt (|t - c| + h.errorAt (t - c)) +
      h.errorAt (max |c| |t| + h.errorAt (t - c) + h.errorAt (|t - c| + h.errorAt (t - c))) := rfl

/-- A smoothing step with any factor in [0, 1]: the three roundings add their errors to the exact
step. -/
theorem FloatHost.smooth_error {c t g : ℚ} (hg0 : 0 ≤ g) (hg1 : g ≤ 1)
    (hov : h.NoOverflow c t g) :
    |h.fl (c + h.fl (h.fl (t - c) * g)) - t| ≤ (1 - g) * |c - t| + h.smoothingError c t := by
  obtain ⟨hdiff, hprod, hsum⟩ := hov
  have e1 : |h.fl (t - c) - (t - c)| ≤ h.errorAt (t - c) := h.fl_error _ hdiff
  rw [h.smoothingError_eq]
  generalize h.fl (t - c) = d at hprod hsum e1 ⊢
  generalize h.errorAt (t - c) = E1 at e1 ⊢
  have hpsize : |d * g| ≤ |t - c| + E1 := by
    calc |d * g| ≤ |d| := abs_mul_le_of_factor hg0 hg1
      _ = |(t - c) + (d - (t - c))| := by congr 1; ring
      _ ≤ |t - c| + |d - (t - c)| := abs_add_le _ _
      _ ≤ |t - c| + E1 := add_le_add_right e1 _
  have e2 := h.fl_error_le hprod hpsize
  have e1g : |(d - (t - c)) * g| ≤ E1 := (abs_mul_le_of_factor hg0 hg1).trans e1
  generalize h.fl (d * g) = p at hsum e2 ⊢
  generalize h.errorAt (|t - c| + E1) = E2 at e2 ⊢
  have hrsize : |c + p| ≤ max |c| |t| + E1 + E2 := by
    calc |c + p| = |(c + (t - c) * g) + (d - (t - c)) * g + (p - d * g)| := by congr 1; ring
      _ ≤ |c + (t - c) * g| + |(d - (t - c)) * g| + |p - d * g| := abs_add_three _ _ _
      _ ≤ max |c| |t| + E1 + E2 := add_le_add_three (abs_smooth_le hg0 hg1) e1g e2
  have e3 := h.fl_error_le hsum hrsize
  have hexact : |(1 - g) * (c - t)| = (1 - g) * |c - t| := by
    rw [abs_mul, abs_of_nonneg (sub_nonneg.2 hg1)]
  calc |h.fl (c + p) - t|
      = |(1 - g) * (c - t) + ((d - (t - c)) * g + (p - d * g) + (h.fl (c + p) - (c + p)))| := by
        congr 1; ring
    _ ≤ |(1 - g) * (c - t)| + |(d - (t - c)) * g + (p - d * g) + (h.fl (c + p) - (c + p))| :=
        abs_add_le _ _
    _ ≤ (1 - g) * |c - t| +
          (|(d - (t - c)) * g| + |p - d * g| + |h.fl (c + p) - (c + p)|) :=
        add_le_add hexact.le (abs_add_three _ _ _)
    _ ≤ _ := add_le_add_right (add_le_add_three e1g e2 e3) _

end

/-- Settles O60: the pass of `SYN.STEP` is one smoothing step of its host. -/
theorem floatingSmoothingBounds : Obligations.FloatingSmoothingBounds := by
  intro s t host hnum hexec
  have hstep := (Machine.synPass_of_exec hexec).smoothed
  rw [smooth_float hnum] at hstep
  have hsnap (hg : t.glide = 1) : t.curFreq =
      (Config.floatHost host).fl
        (s.curFreq + (Config.floatHost host).fl (t.targetFreq - s.curFreq)) := by
    rw [hstep, hg, FloatHost.fl_mul_one]
  refine ⟨hsnap, fun hg hov => ?snap, fun hg0 hg1 hov => ?general⟩
  case snap =>
    rw [hsnap hg]
    exact FloatHost.snap_error _ hov
  case general =>
    rw [hstep]
    exact FloatHost.smooth_error _ hg0 hg1 hov

end Sys2Proof
end

section
/-! PROOFS. The invariants of the state (10_state.md R46), each kept by every operation; from that
and the reset state, every reachable state meets them (R45). -/

namespace Sys2Proof.Machine

open Host (Outcome)

/-! ## The words inside their masks -/

/-- The remap network reaches bits 0 to 14 only. -/
theorem remap_valid (v : Word) : remap v &&& ~~~bmaskValid = 0#32 := by
  apply BitVec.eq_of_getLsbD_eq
  intro b hb
  rw [BitVec.getLsbD_and, remap_getLsbD, BitVec.getLsbD_zero]
  by_cases hvalid : 15 ≤ b
  · rw [remapSource_of_ge hvalid, Option.elim_none, Bool.false_and]
  · have hmask : (~~~bmaskValid).getLsbD b = false := by
      interval_cases b <;> decide
    rw [hmask, Bool.and_false]

/-- What lies inside a mask has no bit outside it. -/
theorem and_and_not_self (v m : Word) : v &&& m &&& ~~~m = 0#32 := by
  rw [BitVec.and_assoc, BitVec.and_not_self]
  exact BitVec.and_zero

/-- Readings inside `SENSE` stay there when a group's lines join them. -/
theorem acc_join_sense {c : Config} {a : Word} (ha : a &&& ~~~sense = 0#32) (w : Word)
    (k : Checkpoint) : (a ||| (w &&& c.params.group k)) &&& ~~~sense = 0#32 := by
  have hdistrib : (a ||| (w &&& c.params.group k)) &&& ~~~sense =
      (a &&& ~~~sense) ||| (w &&& (c.params.group k &&& ~~~sense)) := by
    ext i
    simp [Bool.and_or_distrib_right, Bool.and_assoc]
  rw [hdistrib, ha, c.group_sense k, BitVec.and_zero, BitVec.or_zero]

/-! ## What a pass of `SYN.STEP` keeps -/

section
variable {s t : State}

/-- `TARGET_FREQ` is 0 or an entry of `NOTE` (R46). -/
def TargetEntry (s : State) : Prop := s.targetFreq = 0 ∨ s.targetFreq ∈ s.cfg.params.note

/-- `GLIDE` is the factor of a key (R46). -/
def GlideForm (s : State) : Prop := ∃ k : ℕ, k ≤ 12 ∧ s.glide = 1 / (10 * (k : ℚ) + 1)

/-- From an octave in range the target is the old one or an entry of the table. -/
theorem SynPass.targetEntry (hpass : SynPass s t) (hoct : s.oct ≤ octMax) (hs : TargetEntry s) :
    TargetEntry t := by
  have hcfg : t.cfg = s.cfg := by rw [hpass.frame]
  rw [TargetEntry, hcfg]
  by_cases hmoved : t.targetFreq = s.targetFreq
  · rwa [hmoved]
  · obtain ⟨hmode, hheld⟩ := hpass.target_changed hmoved
    cases hpass with
    | normalKey _ hkey => exact .inr (List.mem_of_getElem? (readNote_entry hoct hkey.1))
    | normalNoKey _ hnone => exact absurd hheld hnone
    | glideKey hadjust _ | glideNoKey hadjust _ => exact absurd hadjust hmode

/-- The factor is the old one or that of a key. -/
theorem SynPass.glideForm (hpass : SynPass s t) (hnum : s.cfg.params.num = .exact)
    (hs : GlideForm s) : GlideForm t := by
  cases hpass with
  | @glideKey k _ hkey => exact ⟨k, hkey.1, glideOf_exact hnum k⟩
  | glideNoKey | normalKey | normalNoKey => exact hs

/-- The factor of a key lies in [0, 1]. -/
theorem GlideForm.range (hs : GlideForm s) : 0 ≤ s.glide ∧ s.glide ≤ 1 := by
  obtain ⟨k, -, hk⟩ := hs
  have hone : (1 : ℚ) ≤ 10 * (k : ℚ) + 1 := le_add_of_nonneg_left (by positivity)
  rw [hk]
  exact ⟨by positivity, div_le_one_of_le₀ hone (by positivity)⟩

/-- No entry of `NOTE` is negative, so no target is. -/
theorem TargetEntry.nonneg (hs : TargetEntry s) : 0 ≤ s.targetFreq :=
  hs.elim (fun h => h.ge) s.cfg.note_nonneg

/-- Between a frequency and a target at or above 0 the smoothing stays at or above 0. -/
theorem SynPass.curFreq_nonneg (hpass : SynPass s t) (hnum : s.cfg.params.num = .exact)
    (hglide : GlideForm t) (htarget : TargetEntry t) (hs : 0 ≤ s.curFreq) : 0 ≤ t.curFreq := by
  obtain ⟨hg0, hg1⟩ := hglide.range
  exact (le_min hs htarget.nonneg).trans (between_of_difference (hpass.difference hnum) hg0 hg1).1

end

/-! ## Every operation keeps them -/

theorem inv_resetWith (c : Config) (d : Nat) (tr : List TraceWord) :
    Inv (State.resetWith c d tr) where
  bmask_valid := BitVec.zero_and
  acc_sense := BitVec.zero_and
  octPrev_controls := BitVec.zero_and
  oct_le := (by decide : octReset ≤ octMax)
  octT_le := le_refl 0
  glide_form _ := ⟨0, by decide, by norm_num⟩
  target_entry := .inl rfl
  curFreq_nonneg _ := le_refl 0
  driven_iff := by simp
  led_width := Nat.two_pow_pos _

/-- No checkpoint is due or taken at the step in which the lines are driven. -/
theorem dueStep_takenStep_driven (k : Checkpoint) : dueStep k = 1 ↔ takenStep k = 1 := by
  cases k <;> decide

/-- An accepted edge is stamped with the present tick, or with an earlier one. -/
theorem Inv.octT_stamp {s : State} (hs : Inv s) (b : Bool) :
    (if b then s.octT else s.ticks) ≤ s.ticks := by
  split
  · exact hs.octT_le
  · exact le_refl _

/-- A pass of `SYN.STEP` keeps the invariants. -/
theorem Inv.synPass {s t : State} (hs : Inv s) (hpass : SynPass s t) : Inv t := by
  have hcfg : t.cfg = s.cfg := by rw [hpass.frame]
  have htarget : TargetEntry t := hpass.targetEntry hs.oct_le hs.target_entry
  have hglide (hnum : s.cfg.params.num = .exact) : GlideForm t :=
    hpass.glideForm hnum (hs.glide_form hnum)
  have hcur (hnum : s.cfg.params.num = .exact) : 0 ≤ t.curFreq :=
    hpass.curFreq_nonneg hnum (hglide hnum) htarget (hs.curFreq_nonneg hnum)
  have hled := hpass.led_lt
  rw [← hcfg] at hglide hcur hled
  have hframe := hpass.frame
  exact {
    bmask_valid := by rw [hframe]; exact hs.bmask_valid
    acc_sense := by rw [hframe]; exact hs.acc_sense
    octPrev_controls := by rw [hframe]; exact hs.octPrev_controls
    oct_le := by rw [hframe]; exact hs.oct_le
    octT_le := by rw [hframe]; exact hs.octT_le
    glide_form := hglide
    target_entry := htarget
    curFreq_nonneg := hcur
    driven_iff := by rw [hframe]; exact hs.driven_iff
    led_width := hled }

/-- Every operation keeps the invariants: each writes a few elements, and each of those inside its
range. -/
theorem exec_inv {i : Instr} {s t : State} (h : exec i s = .next t) (hs : Inv s) : Inv t := by
  cases effect_of_exec h with
  | reset => exact inv_resetWith _ _ _
  | tscCharge => exact { hs with acc_sense := BitVec.zero_and, driven_iff := by simp }
  | tscRelease => exact { hs with driven_iff := by simp }
  | tscSample k w hdue =>
    exact { hs with
      acc_sense := acc_join_sense hs.acc_sense w k
      driven_iff := hs.driven_iff.trans (by rw [hdue]; exact dueStep_takenStep_driven k) }
  | tscFinish hdue =>
    exact { hs with
      bmask_valid := remap_valid _
      driven_iff := hs.driven_iff.trans (by
        rw [hdue]
        exact (by decide : (7 : Fin 8) = 1 ↔ (0 : Fin 8) = 1)) }
  | debKept => exact { hs with octPrev_controls := and_and_not_self _ _ }
  | debMoved hedge =>
    exact { hs with
      oct_le := acceptedOctave_le hedge hs.oct_le
      octT_le := hs.octT_stamp _
      octPrev_controls := and_and_not_self _ _ }
  | synStep _ _ hpass => exact hs.synPass hpass
  | ctlAdv => exact { hs with octT_le := Nat.le_succ_of_le hs.octT_le }
  | dly => exact hs
  | _ => exact { hs with }

/-- The trace is no part of the invariants. -/
theorem Inv.withTrace {s : State} (hs : Inv s) (tr : List TraceWord) : Inv (s.withTrace tr) :=
  { hs with }

/-! ## The obligations -/

/-- Settles O56: a step performs one operation on the state with the rest of the trace. -/
theorem everyStepKeepsTheInvariants : Obligations.EveryStepKeepsTheInvariants := by
  intro s t hs h
  obtain ⟨_, rest, i, -, -, hexec⟩ := step_next_iff.1 h
  exact exec_inv hexec (hs.withTrace rest)

/-- Settles O57: the reset state under any configuration, `State.reset` among them. -/
theorem invariantsHoldAtReset : Obligations.InvariantsHoldAtReset :=
  ⟨inv_resetWith, inv_resetWith _ _ _⟩

/-- Settles O59: the invariants along a run from reset, and `DUTY` from the last tick on. -/
theorem reachableStatesMeetTheInvariants : Obligations.ReachableStatesMeetTheInvariants :=
  ⟨fun c d tr _ _ h => runOps_invariant (fun _ _ _ => exec_inv) h (inv_resetWith c d tr),
    fun _ _ _ _ _ _ hreset h => runOps_dutyTracks hreset h⟩

end Sys2Proof.Machine
end
